-- ==== Sys2Proof/Word.lean ====
section
/-! DEFINITION. The words of the debounce timer block, each of the one width the spec gives it
(`30_encoding.md` R45), and the two buttons (R50). -/

namespace Sys2Proof

/-- A received byte, format CMD8 (R45, R48). -/
abbrev Byte := BitVec 8

/-- The Device State, format ST2 (R46): `ONE` = 0, `TWO` = 1, `THREE` = 2, `FOUR` = 3. -/
abbrev DevState := BitVec 2

/-- The event code on the internal bus `ev`, format EV2 (R47). -/
abbrev EvCode := BitVec 2

/-- The sequencer's phase, format PH2 (R49). -/
abbrev Phase := BitVec 2

/-- A notification code, format NOTE3 (R51). -/
abbrev NoteCode := BitVec 3

/-- The input word of one cycle, format IN12 (R52). -/
abbrev InWord := BitVec 12

/-- The output word of one cycle, format OUT6 (R53). -/
abbrev OutWord := BitVec 6

/-- The two buttons, LEFT listed first (R50). -/
inductive Button where
  | left
  | right
deriving DecidableEq, Repr

end Sys2Proof
end

