-- ==== Sys2Proof/Config.lean ====
section
/-! DEFINITION. What is fixed when the block is built (`00_scope.md` R3), and the values that nothing in the
spec fixes: the clock frequency, and the input word of a cycle for which no word has been listed. -/

namespace Sys2Proof

/-- The elaboration-time parameters of R3 that a rule reads. They are no state (R10): every step hands them on
unchanged. R3: "A model takes them as arguments of its step function" (log entry 3). -/
structure Params where
  /-- `SETTLE_TICKS`, the count loaded into the settle timer. -/
  settleTicks : Nat
  /-- `TIMER_W`, the width in bits of the settle timer. -/
  timerW : Nat
deriving DecidableEq, Repr

/-- R3's constraints: `TIMER_W >= 1` and `0 <= SETTLE_TICKS <= 2^TIMER_W - 1`. -/
abbrev Params.Wf (p : Params) : Prop := 1 ≤ p.timerW ∧ p.settleTicks ≤ 2 ^ p.timerW - 1

/-- The values for this hardware (R3, decision D8). -/
def Params.thisHardware : Params := { settleTicks := 20, timerW := 8 }

/-- `CMD_LEFT_BYTE`, the ASCII code of the letter l (R3, R48). UNVERIFIED (log entry 11). -/
def Config.cmdLeftByte : Byte := 0x6C#8

/-- `CMD_RIGHT_BYTE`, the ASCII code of the letter r (R3, R48). UNVERIFIED (log entry 11). -/
def Config.cmdRightByte : Byte := 0x72#8

/-- `F_CLK` in hertz, OPEN in R3: no rule of the spec reads it, and none of this model does. -/
opaque Config.clockHz : Nat

/-- The input word of a cycle for which the run lists none: the environment may present any word
(R5), so this one is a FREE VALUE, one for each cycle number (log entry 4). -/
opaque Config.freeInput : Nat → InWord

end Sys2Proof
end

