-- ==== Sys2Proof/Syntax.lean ====
section
/-! DEFINITION. The operations of the block, one constructor for each row of `opcode_table.json`, and the places
(carriers) at which the block looks at their bit patterns (`30_encoding.md` R45). -/

namespace Sys2Proof

/-- Where a pattern is seen. The seven formats that carry an operation (R45); EDGE2 is carried by each of the two
edge detectors. -/
inductive Carrier where
  /-- `rx_data` in a cycle with `rx_valid` = 1 (R48). -/
  | cmd8
  /-- The internal bus `ev` (R47). -/
  | ev2
  /-- The sequencer's condition vector (R54). -/
  | seq7
  /-- The edge detector of one button (R55). -/
  | edge2 (x : Button)
  /-- The select input of the output multiplexer (R46). -/
  | st2
  /-- The notification code being presented (R51). -/
  | note3
  /-- The input word of a cycle (R52). -/
  | in12
deriving DecidableEq, Repr

/-- A bit pattern at a carrier, bit 0 the least significant (R6). -/
structure Pattern where
  carrier : Carrier
  word : Nat
deriving DecidableEq, Repr

/-- The operations. An argument is a field of the row's encoding that the row leaves open (the table's
`source_fields`): `pendL`, `pendR` the flags, `tz` = (`timer` = 0), `pin` = `pin_svc`, `rx` = `rx_valid`. -/
inductive Instr where
  /-- `CMD.L` (R116). -/
  | cmdL
  /-- `CMD.R` (R117). -/
  | cmdR
  /-- `CMD.INV` (R118): any byte but the two command bytes. -/
  | cmdInv (b : Byte)
  /-- `EV.NONE` (R88). -/
  | evNone
  /-- `EV.LEFT` (R86). -/
  | evLeft
  /-- `EV.RIGHT` (R87). -/
  | evRight
  /-- `EV.RSVD` (R89). -/
  | evRsvd
  /-- `SEQ.IDLE` (R131). -/
  | seqIdle (tz pin rx : Bool)
  /-- `SVC.START.L` (R69). -/
  | svcStartL (pendR tz pin rx : Bool)
  /-- `SVC.START.R` (R69). -/
  | svcStartR (tz pin rx : Bool)
  /-- `SETTLE.TICK` (R71). -/
  | settleTick (pendL pendR pin rx : Bool)
  /-- `RESAMPLE.CONFIRM` (R72). -/
  | resampleConfirm (pendL pendR rx : Bool)
  /-- `RESAMPLE.DROP` (R73). -/
  | resampleDrop (pendL pendR rx : Bool)
  /-- `FIRE.GRANT` (R133). -/
  | fireGrant (pendL pendR tz pin : Bool)
  /-- `FIRE.HOLD` (R134). -/
  | fireHold (pendL pendR tz pin : Bool)
  /-- `SEQ.RSVD` (R137). -/
  | seqRsvd (pendL pendR tz pin rx : Bool)
  /-- `EDGE.FALL` of one button (R65). -/
  | edgeFall (x : Button)
  /-- `EDGE.LOW` of one button (R66). -/
  | edgeLow (x : Button)
  /-- `EDGE.RISE` of one button (R66). -/
  | edgeRise (x : Button)
  /-- `EDGE.HIGH` of one button (R66). -/
  | edgeHigh (x : Button)
  /-- `PROJ.ONE` (R100). -/
  | projOne
  /-- `PROJ.TWO` (R100). -/
  | projTwo
  /-- `PROJ.THREE` (R100). -/
  | projThree
  /-- `PROJ.FOUR` (R100). -/
  | projFour
  /-- `NOTE.S1` (R105). -/
  | noteS1
  /-- `NOTE.S2` (R105). -/
  | noteS2
  /-- `NOTE.S3` (R105). -/
  | noteS3
  /-- `NOTE.S4` (R105). -/
  | noteS4
  /-- `NOTE.INV` (R106). -/
  | noteInv
  /-- `NOTE.RSVD` (R51): one of the three codes 5, 6, 7. -/
  | noteRsvd (n : NoteCode)
  /-- `RESET` (R170): the other bits of the input word are ignored. -/
  | reset (btnL btnR rx : Bool) (b : Byte)
deriving DecidableEq, Repr

end Sys2Proof
end

