-- ==== Sys2Proof/WellFormed.lean ====
section
/-! DEFINITION. Which operations stand for a pattern of the table: the two default rows of `opcode_table.json` hold
only the values that no other row of their format takes (`30_encoding.md` R48, R51). -/

namespace Sys2Proof

/-- An operand is one the row's encoding admits. -/
def Instr.wf : Instr → Bool
  | .cmdInv b => b != Config.cmdLeftByte && b != Config.cmdRightByte
  | .noteRsvd n => decide (5 ≤ n.toNat)
  | .cmdL => true
  | .cmdR => true
  | .evNone => true
  | .evLeft => true
  | .evRight => true
  | .evRsvd => true
  | .seqIdle _ _ _ => true
  | .svcStartL _ _ _ _ => true
  | .svcStartR _ _ _ => true
  | .settleTick _ _ _ _ => true
  | .resampleConfirm _ _ _ => true
  | .resampleDrop _ _ _ => true
  | .fireGrant _ _ _ _ => true
  | .fireHold _ _ _ _ => true
  | .seqRsvd _ _ _ _ _ => true
  | .edgeFall _ => true
  | .edgeLow _ => true
  | .edgeRise _ => true
  | .edgeHigh _ => true
  | .projOne => true
  | .projTwo => true
  | .projThree => true
  | .projFour => true
  | .noteS1 => true
  | .noteS2 => true
  | .noteS3 => true
  | .noteS4 => true
  | .noteInv => true
  | .reset _ _ _ _ => true

end Sys2Proof
end

