-- ==== Sys2Proof/Decode.lean ====
section
/-! DEFINITION. Decoding the patterns of `opcode_table.json`, each read at its carrier, and the encoder. The rows are
the table's own masks and matches (`30_encoding.md` R45 to R55), in the table's order of priority: a default row
stands last. A pattern that is no operation is rejected by name. -/

namespace Sys2Proof

/-- Why a pattern is rejected. -/
inductive DecodeError where
  /-- The number needs more bits than the carrier's format has (R58). -/
  | tooWide (c : Carrier)
  /-- No row of the carrier's format matches: an input word with `rst` = 0, which is the input of a whole cycle and
  no single operation (R52). -/
  | noOperation (c : Carrier)
deriving DecidableEq, Repr

/-- The width of a carrier's format (R45). -/
def Carrier.width : Carrier → Nat
  | .cmd8 => 8
  | .ev2 => 2
  | .seq7 => 7
  | .edge2 _ => 2
  | .st2 => 2
  | .note3 => 3
  | .in12 => 12

/-- A row of the operation table: the pattern `w` is this row's when `w AND mask = value`. -/
structure Row where
  mask : Nat
  value : Nat
  build : Nat → Instr

/-- Does the row match the pattern? -/
def Row.hits (r : Row) (w : Nat) : Bool := (w &&& r.mask) == r.value

/-- CMD8 (R48): two exact bytes, then the default. -/
def cmdRows : List Row :=
  [ ⟨0xFF, Config.cmdLeftByte.toNat, fun _ => .cmdL⟩,
    ⟨0xFF, Config.cmdRightByte.toNat, fun _ => .cmdR⟩,
    ⟨0x00, 0x00, fun w => .cmdInv (BitVec.ofNat 8 w)⟩ ]

/-- EV2 (R47). -/
def evRows : List Row :=
  [ ⟨0x3, 0x0, fun _ => .evNone⟩,
    ⟨0x3, 0x1, fun _ => .evLeft⟩,
    ⟨0x3, 0x2, fun _ => .evRight⟩,
    ⟨0x3, 0x3, fun _ => .evRsvd⟩ ]

/-- SEQ7 (R54): bit 6 to 5 `phase`, bit 4 `pend_l`, bit 3 `pend_r`, bit 2 `tz`, bit 1 `pin_svc`, bit 0 `rx_valid`. -/
def seqRows : List Row :=
  [ ⟨0x78, 0x00, fun w => .seqIdle (w.testBit 2) (w.testBit 1) (w.testBit 0)⟩,
    ⟨0x70, 0x10, fun w => .svcStartL (w.testBit 3) (w.testBit 2) (w.testBit 1) (w.testBit 0)⟩,
    ⟨0x78, 0x08, fun w => .svcStartR (w.testBit 2) (w.testBit 1) (w.testBit 0)⟩,
    ⟨0x64, 0x20, fun w => .settleTick (w.testBit 4) (w.testBit 3) (w.testBit 1) (w.testBit 0)⟩,
    ⟨0x66, 0x24, fun w => .resampleConfirm (w.testBit 4) (w.testBit 3) (w.testBit 0)⟩,
    ⟨0x66, 0x26, fun w => .resampleDrop (w.testBit 4) (w.testBit 3) (w.testBit 0)⟩,
    ⟨0x61, 0x40, fun w => .fireGrant (w.testBit 4) (w.testBit 3) (w.testBit 2) (w.testBit 1)⟩,
    ⟨0x61, 0x41, fun w => .fireHold (w.testBit 4) (w.testBit 3) (w.testBit 2) (w.testBit 1)⟩,
    ⟨0x60, 0x60, fun w =>
      .seqRsvd (w.testBit 4) (w.testBit 3) (w.testBit 2) (w.testBit 1) (w.testBit 0)⟩ ]

/-- EDGE2 of button `x` (R55): bit 1 `prev_x`, bit 0 `btn_x`. -/
def edgeRows (x : Button) : List Row :=
  [ ⟨0x3, 0x2, fun _ => .edgeFall x⟩,
    ⟨0x3, 0x0, fun _ => .edgeLow x⟩,
    ⟨0x3, 0x1, fun _ => .edgeRise x⟩,
    ⟨0x3, 0x3, fun _ => .edgeHigh x⟩ ]

/-- ST2 as the select value of the output multiplexer (R46). -/
def projRows : List Row :=
  [ ⟨0x3, 0x0, fun _ => .projOne⟩,
    ⟨0x3, 0x1, fun _ => .projTwo⟩,
    ⟨0x3, 0x2, fun _ => .projThree⟩,
    ⟨0x3, 0x3, fun _ => .projFour⟩ ]

/-- NOTE3 (R51): five exact codes, then the default. -/
def noteRows : List Row :=
  [ ⟨0x7, 0x0, fun _ => .noteS1⟩,
    ⟨0x7, 0x1, fun _ => .noteS2⟩,
    ⟨0x7, 0x2, fun _ => .noteS3⟩,
    ⟨0x7, 0x3, fun _ => .noteS4⟩,
    ⟨0x7, 0x4, fun _ => .noteInv⟩,
    ⟨0x0, 0x0, fun w => .noteRsvd (BitVec.ofNat 3 w)⟩ ]

/-- IN12 (R52): bit 11 is `rst`; bit 10 `btn_l`, bit 9 `btn_r`, bit 8 `rx_valid`, bits 7 to 0 `rx_data` are ignored
by the operation. -/
def inRows : List Row :=
  [ ⟨0x800, 0x800, fun w =>
      .reset (w.testBit 10) (w.testBit 9) (w.testBit 8) (BitVec.ofNat 8 w)⟩ ]

/-- The rows of a carrier's format. -/
def rowsOf : Carrier → List Row
  | .cmd8 => cmdRows
  | .ev2 => evRows
  | .seq7 => seqRows
  | .edge2 x => edgeRows x
  | .st2 => projRows
  | .note3 => noteRows
  | .in12 => inRows

/-- The operation a pattern stands for at a carrier: the first row that matches. Total on every number. -/
def decode (c : Carrier) (w : Nat) : Except DecodeError Instr :=
  if w < 2 ^ c.width then
    match (rowsOf c).find? (fun r => r.hits w) with
    | some r => .ok (r.build w)
    | none => .error (.noOperation c)
  else .error (.tooWide c)

/-! ### The encoder -/

/-- A Boolean field placed at bit `i`. -/
def bitAt (b : Bool) (i : Nat) : Nat := if b then 2 ^ i else 0

/-- The carrier at which an operation's pattern is seen. -/
def Instr.carrier : Instr → Carrier
  | .cmdL => .cmd8
  | .cmdR => .cmd8
  | .cmdInv _ => .cmd8
  | .evNone => .ev2
  | .evLeft => .ev2
  | .evRight => .ev2
  | .evRsvd => .ev2
  | .seqIdle _ _ _ => .seq7
  | .svcStartL _ _ _ _ => .seq7
  | .svcStartR _ _ _ => .seq7
  | .settleTick _ _ _ _ => .seq7
  | .resampleConfirm _ _ _ => .seq7
  | .resampleDrop _ _ _ => .seq7
  | .fireGrant _ _ _ _ => .seq7
  | .fireHold _ _ _ _ => .seq7
  | .seqRsvd _ _ _ _ _ => .seq7
  | .edgeFall x => .edge2 x
  | .edgeLow x => .edge2 x
  | .edgeRise x => .edge2 x
  | .edgeHigh x => .edge2 x
  | .projOne => .st2
  | .projTwo => .st2
  | .projThree => .st2
  | .projFour => .st2
  | .noteS1 => .note3
  | .noteS2 => .note3
  | .noteS3 => .note3
  | .noteS4 => .note3
  | .noteInv => .note3
  | .noteRsvd _ => .note3
  | .reset _ _ _ _ => .in12

/-- The pattern of an operation at its carrier. -/
def encode : Instr → Nat
  | .cmdL => 0x6C
  | .cmdR => 0x72
  | .cmdInv b => b.toNat
  | .evNone => 0b00
  | .evLeft => 0b01
  | .evRight => 0b10
  | .evRsvd => 0b11
  | .seqIdle tz pin rx => 0x00 + bitAt tz 2 + bitAt pin 1 + bitAt rx 0
  | .svcStartL pr tz pin rx => 0x10 + bitAt pr 3 + bitAt tz 2 + bitAt pin 1 + bitAt rx 0
  | .svcStartR tz pin rx => 0x08 + bitAt tz 2 + bitAt pin 1 + bitAt rx 0
  | .settleTick pl pr pin rx => 0x20 + bitAt pl 4 + bitAt pr 3 + bitAt pin 1 + bitAt rx 0
  | .resampleConfirm pl pr rx => 0x24 + bitAt pl 4 + bitAt pr 3 + bitAt rx 0
  | .resampleDrop pl pr rx => 0x26 + bitAt pl 4 + bitAt pr 3 + bitAt rx 0
  | .fireGrant pl pr tz pin => 0x40 + bitAt pl 4 + bitAt pr 3 + bitAt tz 2 + bitAt pin 1
  | .fireHold pl pr tz pin => 0x41 + bitAt pl 4 + bitAt pr 3 + bitAt tz 2 + bitAt pin 1
  | .seqRsvd pl pr tz pin rx =>
      0x60 + bitAt pl 4 + bitAt pr 3 + bitAt tz 2 + bitAt pin 1 + bitAt rx 0
  | .edgeFall _ => 0b10
  | .edgeLow _ => 0b00
  | .edgeRise _ => 0b01
  | .edgeHigh _ => 0b11
  | .projOne => 0b00
  | .projTwo => 0b01
  | .projThree => 0b10
  | .projFour => 0b11
  | .noteS1 => 0b000
  | .noteS2 => 0b001
  | .noteS3 => 0b010
  | .noteS4 => 0b011
  | .noteInv => 0b100
  | .noteRsvd n => n.toNat
  | .reset l r v b => 0x800 + bitAt l 10 + bitAt r 9 + bitAt v 8 + b.toNat

/-! ### The table's words without their carrier

A row of the operation table does not say at run time which format its bits are in: the block knows it from the place
where the bits stand. `decodeTableWord` is handed the bits alone, so it must choose (log entry 6). -/

/-- The carrier taken for `nbits` bits of value `w`: the format of exactly that width where there is one; for a whole
byte, CMD8 for the two command bytes and otherwise the narrowest format that holds the number (EV2 for two bits);
for two bytes, IN12. DESIGN CHOICE (log entry 6). -/
def carrierOfTable (nbits w : Nat) : Carrier :=
  if nbits ≤ 2 then .ev2
  else if nbits ≤ 3 then .note3
  else if nbits ≤ 7 then .seq7
  else if nbits ≤ 8 then
    if w = Config.cmdLeftByte.toNat ∨ w = Config.cmdRightByte.toNat then .cmd8
    else if w < 4 then .ev2
    else if w < 8 then .note3
    else if w < 128 then .seq7
    else .cmd8
  else .in12

/-- The operation read from a table row's bits (log entry 6). -/
def decodeTableWord (nbits w : Nat) : Option Instr :=
  match decode (carrierOfTable nbits w) w with
  | .ok i => some i
  | .error _ => none

end Sys2Proof
end

