-- ==== Sys2Proof/Machine/State.lean ====
section
/-! DEFINITION. The state of the block: the ten registers of `10_state.md` R10, the ports of R18 and R19, and the model's
own fields (the registers being written, the parameters, the cycle count, a presented pattern). -/

namespace Sys2Proof.Machine

/-- The ten registers (R10). -/
structure Regs where
  /-- The Device State (R11). -/
  state : DevState
  /-- Pending-Press Flag of LEFT (R12). -/
  pendL : Bool
  /-- Pending-Press Flag of RIGHT (R12). -/
  pendR : Bool
  /-- The LEFT pin sampled in the previous cycle (R13). -/
  prevL : Bool
  /-- The RIGHT pin sampled in the previous cycle (R13). -/
  prevR : Bool
  /-- Where the service sequencer is (R14). -/
  phase : Phase
  /-- Which button is being serviced (R15). -/
  svc : Button
  /-- Cycles of settle delay still to run (R16), an unbounded number as `92_eei_decisions.md` allows (log entry 2). -/
  timer : Nat
  /-- A notification is presented this cycle (R17). -/
  noteValid : Bool
  /-- Which notification (R17). -/
  noteCode : NoteCode
deriving DecidableEq, Repr

/-- The five texts the block can select (R104). -/
inductive Message where
  /-- The status line of a Device State. -/
  | status (s : DevState)
  /-- The invalid-command line. -/
  | invalid
deriving DecidableEq, Repr

/-- What the output ports of R19 show in a cycle, with the message that `project` selects (R100). -/
structure Outputs where
  led1 : Bool
  led2 : Bool
  message : Message
  noteValid : Bool
  noteCode : NoteCode
deriving DecidableEq, Repr

/-- The machine. Between two steps `regs` is R(t) and `upd` equals it; inside a step the operations read `regs` and
write `upd` (R6: `r <- v` defines `r(t+1)`; log entry 1). -/
structure State where
  /-- R(t): what every rule reads. -/
  regs : Regs
  /-- R(t+1), as written so far in the cycle. The model's own (log entry 1). -/
  upd : Regs
  /-- What the output ports showed in the last cycle that ran (log entry 7). -/
  out : Outputs
  /-- The elaboration-time parameters, which no step changes (R3; log entry 3). -/
  cfg : Params
  /-- The input words still to come, the first of them I(t) (R52; log entry 4). -/
  inputs : List InWord
  /-- How many cycles have passed. The model's own (log entry 4). -/
  cycle : Nat
  /-- A pattern presented to one sub-block taken alone. The model's own (log entry 5). -/
  presented : Option Pattern
deriving DecidableEq, Repr

/-- There is no fault: "A model has no fault outcome and no stuck outcome for this block" (R150). -/
inductive Fault where
deriving DecidableEq, Repr

/-- Why a step has no meaning. -/
inductive Refusal where
  /-- An operation with no meaning yet. Raised by no arm of `exec`: every operation has one. Safe. -/
  | notModelled (mnemonic : String)
  /-- A number was presented to a sub-block that decodes to no operation there (log entry 5). Raised by the step, never in a
  cycle of the block. Safe. -/
  | undecodable (e : DecodeError)
deriving DecidableEq, Repr

/-- The registers after a cycle with `rst` = 1 (R23). -/
def Regs.reset : Regs :=
  { state := 0#2, pendL := false, pendR := false, prevL := false, prevR := false, phase := 0#2,
    svc := .left, timer := 0, noteValid := false, noteCode := 0#3 }

/-- The outputs that go with the reset registers (R23: output word 0x00). -/
def Outputs.reset : Outputs :=
  { led1 := false, led2 := false, message := .status 0#2, noteValid := false, noteCode := 0#3 }

/-- The machine right after reset (R23), with the parameters of this hardware (R3) and no input word listed. -/
def State.reset : State :=
  { regs := Regs.reset, upd := Regs.reset, out := Outputs.reset, cfg := Params.thisHardware,
    inputs := [], cycle := 0, presented := none }

end Sys2Proof.Machine
end

