-- ==== Sys2Proof/Machine/Operands.lean ====
section
/-! DEFINITION. What the rules read: the fields of the input word (`30_encoding.md` R52), the input word of the cycle,
the named codes (R46 to R51), and the combinational signals of `00_scope.md` R7, each a function of R(t) and I(t). -/

namespace Sys2Proof.Machine

/-! ### The input word (R52) -/

/-- `rst`, bit 11. -/
def InWord.rst (w : InWord) : Bool := w.getLsbD 11
/-- `btn_l`, bit 10: 1 released, 0 pressed (R75). -/
def InWord.btnL (w : InWord) : Bool := w.getLsbD 10
/-- `btn_r`, bit 9: 1 released, 0 pressed (R75). -/
def InWord.btnR (w : InWord) : Bool := w.getLsbD 9
/-- `rx_valid`, bit 8. -/
def InWord.rxValid (w : InWord) : Bool := w.getLsbD 8
/-- `rx_data`, bits 7 to 0. -/
def InWord.rxData (w : InWord) : Byte := w.setWidth 8

/-- The pin of a button. -/
def InWord.btn (w : InWord) : Button → Bool
  | .left => InWord.btnL w
  | .right => InWord.btnR w

/-- The input word made of its fields. -/
def InWord.make (rst btnL btnR rxValid : Bool) (rxData : Byte) : InWord :=
  BitVec.ofNat 12 (bitAt rst 11 + bitAt btnL 10 + bitAt btnR 9 + bitAt rxValid 8 + rxData.toNat)

/-- I(t): the first listed word, or, where none is listed, a free value (R5; log entry 4). -/
def State.input (s : State) : InWord :=
  match s.inputs with
  | w :: _ => w
  | [] => Config.freeInput s.cycle

/-! ### Named codes -/

/-- `ONE` to `FOUR` (R46). -/
abbrev stOne : DevState := 0b00#2
abbrev stTwo : DevState := 0b01#2
abbrev stThree : DevState := 0b10#2
abbrev stFour : DevState := 0b11#2

/-- The event codes (R47). -/
abbrev evCodeNone : EvCode := 0b00#2
abbrev evCodeLeft : EvCode := 0b01#2
abbrev evCodeRight : EvCode := 0b10#2
abbrev evCodeRsvd : EvCode := 0b11#2

/-- The phases (R49). -/
abbrev phIdle : Phase := 0b00#2
abbrev phSettle : Phase := 0b01#2
abbrev phFire : Phase := 0b10#2
abbrev phRsvd : Phase := 0b11#2

/-- `NOTE.INV` (R51). -/
abbrev noteInvCode : NoteCode := 0b100#3

/-- The code of a status notification, the state with a 0 above it (R51, R56). -/
def statusCode (s : DevState) : NoteCode := s.setWidth 3

/-- SVC1 (R50): 0 = LEFT, 1 = RIGHT. -/
def Button.bit : Button → Bool
  | .left => false
  | .right => true

/-- The event that a service of this button yields (R77). -/
def Button.event : Button → EvCode
  | .left => evCodeLeft
  | .right => evCodeRight

/-! ### Registers by button -/

/-- `pend_x`. -/
def Regs.pend (r : Regs) : Button → Bool
  | .left => r.pendL
  | .right => r.pendR

/-- `prev_x`. -/
def Regs.prev (r : Regs) : Button → Bool
  | .left => r.prevL
  | .right => r.prevR

/-! ### Combinational signals (R7) -/

/-- `fall_x` (R65): the last sample was 1 and this one is 0. -/
def fall (r : Regs) (w : InWord) (x : Button) : Bool := r.prev x && !InWord.btn w x

/-- `start_x` (R131): in `IDLE`, LEFT if its flag is set, else RIGHT if its flag is set. -/
def start (r : Regs) : Button → Bool
  | .left => r.phase == phIdle && r.pendL
  | .right => r.phase == phIdle && !r.pendL && r.pendR

/-- `pin_svc` (R72): the live pin of the button being serviced. -/
def pinSvc (r : Regs) (w : InWord) : Bool := InWord.btn w r.svc

/-- `tz` (R54): the timer is 0. -/
def timerZero (r : Regs) : Bool := r.timer == 0

/-- `cmd_left` (R119). -/
def cmdLeft (w : InWord) : Bool := InWord.rxValid w && InWord.rxData w == Config.cmdLeftByte

/-- `cmd_right` (R119). -/
def cmdRight (w : InWord) : Bool := InWord.rxValid w && InWord.rxData w == Config.cmdRightByte

/-- `cmd_inv` (R119). -/
def cmdInvalid (w : InWord) : Bool :=
  InWord.rxValid w && InWord.rxData w != Config.cmdLeftByte && InWord.rxData w != Config.cmdRightByte

/-- `btn_grant` (R133). -/
def btnGrant (r : Regs) (w : InWord) : Bool := r.phase == phFire && !InWord.rxValid w

/-- `ev` (R135): the command byte first, then a granted button event, else nothing. -/
def evOf (r : Regs) (w : InWord) : EvCode :=
  if cmdLeft w then evCodeLeft
  else if cmdRight w then evCodeRight
  else if btnGrant r w then Button.event r.svc
  else evCodeNone

/-! ### The words the sub-blocks look at -/

/-- SEQ7 (R54). -/
def seqVector (r : Regs) (w : InWord) : Nat :=
  r.phase.toNat * 32 + bitAt r.pendL 4 + bitAt r.pendR 3 + bitAt (timerZero r) 2
    + bitAt (pinSvc r w) 1 + bitAt (InWord.rxValid w) 0

/-- EDGE2 of a button (R55). -/
def edgeVector (r : Regs) (w : InWord) (x : Button) : Nat :=
  bitAt (r.prev x) 1 + bitAt (InWord.btn w x) 0

end Sys2Proof.Machine
end

