-- ==== Sys2Proof/Machine/Ops.lean ====
section
/-! DEFINITION. The named operations over the registers. `r <- v` of the spec defines `r(t+1)` (`00_scope.md` R6), so each
of these writes `upd` and leaves `regs` alone. A cycle is opened, its operations run, and the clock edge closes it.
TAKING AN EXCEPTION: the block has none. "There is no trap entry: no state is saved, no mode changes, no mask is set,
control goes nowhere" (`60_exceptions.md` R157), and "There is no return operation" (R158). What stands in its place is
the report of an invalid command (`reportInvalid`, R106, R152). -/

namespace Sys2Proof.Machine

/-- `state <- v`. -/
def State.setState (s : State) (v : DevState) : State := { s with upd := { s.upd with state := v } }

/-- `pend_x <- v`. -/
def State.setPend (s : State) (x : Button) (v : Bool) : State :=
  match x with
  | .left => { s with upd := { s.upd with pendL := v } }
  | .right => { s with upd := { s.upd with pendR := v } }

/-- `prev_x <- v`. -/
def State.setPrev (s : State) (x : Button) (v : Bool) : State :=
  match x with
  | .left => { s with upd := { s.upd with prevL := v } }
  | .right => { s with upd := { s.upd with prevR := v } }

/-- `phase <- v`. -/
def State.setPhase (s : State) (v : Phase) : State := { s with upd := { s.upd with phase := v } }

/-- `svc <- x`. -/
def State.setSvc (s : State) (x : Button) : State := { s with upd := { s.upd with svc := x } }

/-- `timer <- n`. -/
def State.setTimer (s : State) (n : Nat) : State := { s with upd := { s.upd with timer := n } }

/-- `note_valid <- 1; note_code <- c`. -/
def State.notify (s : State) (c : NoteCode) : State :=
  { s with upd := { s.upd with noteValid := true, noteCode := c } }

/-- Every register takes its reset value (R23, R170). -/
def State.resetRegs (s : State) : State := { s with upd := Regs.reset }

/-- `report INVALID` (R6, R106). -/
def State.reportInvalid (s : State) : State := s.notify noteInvCode

/-- Drive the LED ports and select the message (R100). -/
def State.drive (s : State) (led1 led2 : Bool) (m : Message) : State :=
  { s with out := { s.out with led1 := led1, led2 := led2, message := m } }

/-- The start of a cycle: what no rule assigns keeps its value (R6), but `note_valid` falls back to 0 unless something is
reported (R105, last branch). The notification ports show the registers (R19). -/
def State.openCycle (s : State) : State :=
  { s with
    upd := { s.regs with noteValid := false },
    out := { s.out with noteValid := s.regs.noteValid, noteCode := s.regs.noteCode } }

/-- The clock edge that ends a cycle (R4, R34): all registers change at once, the input word is used up, and a pattern
presented for this cycle is gone. -/
def State.closeCycle (s : State) : State :=
  { s with regs := s.upd, inputs := s.inputs.tail, cycle := s.cycle + 1, presented := none }

/-- Go on after a next state; a stop stays a stop. -/
def andThen (o : Host.Outcome State Fault Refusal)
    (f : State → Host.Outcome State Fault Refusal) : Host.Outcome State Fault Refusal :=
  match o with
  | .next s => f s
  | .fault r => .fault r
  | .refused r => .refused r

end Sys2Proof.Machine
end

