-- ==== Sys2Proof/Machine/Flags.lean ====
section
/-! DEFINITION. The block's flags (`10_state.md` R12, R17): the two Pending-Press Flags and `note_valid`, with every way
they are set and cleared. -/

namespace Sys2Proof.Machine

/-- A falling edge sets the flag (R67). -/
def State.raisePend (s : State) (x : Button) : State := s.setPend x true

/-- The start of a service clears the flag, but an edge of the same cycle keeps it set (R69, R70: set wins). -/
def State.takePend (s : State) (x : Button) : State := s.setPend x (fall s.regs s.input x)

/-- What a flag holds after a cycle without reset (R70). -/
def pendNext (r : Regs) (w : InWord) (x : Button) : Bool :=
  if fall r w x then true else if start r x then false else r.pend x

/-- A status notification is owed for this event code, and for no other (R92, R105). -/
def announces (e : EvCode) : Bool := e == evCodeLeft || e == evCodeRight

end Sys2Proof.Machine
end

