-- ==== Sys2Proof/Machine/FsmCore.lean ====
section
/-! DEFINITION. The 4-state FSM core (`41_fsm_core.md`): the transition function and the operations `EV.*`. -/

namespace Sys2Proof.Machine

/-- `transition(s, e)` (R85): LEFT goes back one, RIGHT goes on one, modulo 4; any other code leaves the state. -/
def transition (s : DevState) (e : EvCode) : DevState :=
  if e = evCodeLeft then s - 1#2
  else if e = evCodeRight then s + 1#2
  else s

/-- Present an event code to the core: `state <- transition(state, e)` (R85), and for LEFT or RIGHT exactly one status
notification that carries the new state (R92, R105). -/
def State.applyEvent (s : State) (e : EvCode) : State :=
  let s' := s.setState (transition s.regs.state e)
  if announces e then s'.notify (statusCode (transition s.regs.state e)) else s'

/-- `EV.NONE` (R88). -/
def execEvNone (s : State) : Host.Outcome State Fault Refusal := .next (s.applyEvent evCodeNone)

/-- `EV.LEFT` (R86). -/
def execEvLeft (s : State) : Host.Outcome State Fault Refusal := .next (s.applyEvent evCodeLeft)

/-- `EV.RIGHT` (R87). -/
def execEvRight (s : State) : Host.Outcome State Fault Refusal := .next (s.applyEvent evCodeRight)

/-- `EV.RSVD` (R89): the tolerant no-op. -/
def execEvRsvd (s : State) : Host.Outcome State Fault Refusal := .next (s.applyEvent evCodeRsvd)

end Sys2Proof.Machine
end

