-- ==== Sys2Proof/Machine/CommandDecoder.lean ====
section
/-! DEFINITION. The command event decoder (`43_command_decoder.md`): `decode_byte` and the operations `CMD.*`. -/

namespace Sys2Proof.Machine

/-- `decode_byte(b)` (R115): the event a byte stands for, if any. -/
def decodeByte (b : Byte) : Option EvCode :=
  if b = Config.cmdLeftByte then some evCodeLeft
  else if b = Config.cmdRightByte then some evCodeRight
  else none

/-- `CMD.L` (R116): LEFT-PRESS, applied in this same cycle. -/
def execCmdL (s : State) : Host.Outcome State Fault Refusal := .next (s.applyEvent evCodeLeft)

/-- `CMD.R` (R117): RIGHT-PRESS, applied in this same cycle. -/
def execCmdR (s : State) : Host.Outcome State Fault Refusal := .next (s.applyEvent evCodeRight)

/-- `CMD.INV` (R118): no event, and the invalid-command notification. The byte is not kept (R150). -/
def execCmdInv (s : State) : Host.Outcome State Fault Refusal :=
  .next (s.applyEvent evCodeNone).reportInvalid

end Sys2Proof.Machine
end

