-- ==== Sys2Proof/Machine/DebounceGate.lean ====
section
/-! DEFINITION. The Debounce Gate (`40_debounce_gate.md`): the edge detectors `EDGE.*`, the start of a service
`SVC.START.*`, the settle delay `SETTLE.TICK` and the re-sample `RESAMPLE.*`. -/

namespace Sys2Proof.Machine

/-- `EDGE.FALL` (R65, R67, R68): the flag is set; the pin read 0. -/
def execEdgeFall (x : Button) (s : State) : Host.Outcome State Fault Refusal :=
  .next ((s.raisePend x).setPrev x false)

/-- `EDGE.LOW` (R66, R68): nothing is set; the pin read 0. -/
def execEdgeLow (x : Button) (s : State) : Host.Outcome State Fault Refusal :=
  .next (s.setPrev x false)

/-- `EDGE.RISE` (R66, R68): nothing is set; the pin read 1. -/
def execEdgeRise (x : Button) (s : State) : Host.Outcome State Fault Refusal :=
  .next (s.setPrev x true)

/-- `EDGE.HIGH` (R66, R68): nothing is set; the pin read 1. -/
def execEdgeHigh (x : Button) (s : State) : Host.Outcome State Fault Refusal :=
  .next (s.setPrev x true)

/-- Begin to service a button (R69): its flag is taken, the timer loaded, the settle delay begins. -/
def State.startService (s : State) (x : Button) : State :=
  (((s.takePend x).setSvc x).setTimer s.cfg.settleTicks).setPhase phSettle

/-- `SVC.START.L` (R69). -/
def execSvcStartL (s : State) : Host.Outcome State Fault Refusal := .next (s.startService .left)

/-- `SVC.START.R` (R69). -/
def execSvcStartR (s : State) : Host.Outcome State Fault Refusal := .next (s.startService .right)

/-- `SETTLE.TICK` (R71). The timer is not 0 when this fires, so nothing wraps (R16, R90). -/
def execSettleTick (s : State) : Host.Outcome State Fault Refusal :=
  .next (s.setTimer (s.regs.timer - 1))

/-- `RESAMPLE.CONFIRM` (R72): the press is confirmed and waits in `FIRE`. -/
def execResampleConfirm (s : State) : Host.Outcome State Fault Refusal := .next (s.setPhase phFire)

/-- `RESAMPLE.DROP` (R73): noise, dropped in silence. -/
def execResampleDrop (s : State) : Host.Outcome State Fault Refusal := .next (s.setPhase phIdle)

end Sys2Proof.Machine
end

