-- ==== Sys2Proof/Machine/OutputMux.lean ====
section
/-! DEFINITION. The LED output multiplexer and the notification port (`42_output_mux.md`): `project`, the message table,
`out`, the operations `PROJ.*` and `NOTE.*`, and the lines a consumer owes (R108). -/

namespace Sys2Proof.Machine

/-! ### Messages (R104) -/

/-- The text of a message, exactly (R104). The number in a state's name is its code plus one (R46). -/
def Message.text : Message → String
  | .status s => if s = stOne then "Device state: 1" else if s = stTwo then "Device state: 2"
      else if s = stThree then "Device state: 3" else "Device state: 4"
  | .invalid => "COMMAND is INVALID"

/-- The message a notification code selects (R51, R104); codes 5 to 7 select none. -/
def messageOf (c : NoteCode) : Option Message :=
  if c.toNat < 4 then some (.status (c.setWidth 2))
  else if c = noteInvCode then some .invalid
  else none

/-- The ASCII bytes of a message (R104). -/
def Message.bytes (m : Message) : List Nat := m.text.toList.map Char.toNat

/-- The bytes after the text as the source's section 6 prints them (R108): reference values of the consumer. -/
def Message.wireEnding : Message → List Nat
  | .status _ => [0x0A, 0x20]
  | .invalid => [0x20, 0x0D, 0x0A]

/-- The line a consumer owes for a notification (R108): the text, then its terminator, which is the consumer's own
parameter (U4 of `93_implementation_defined.md`). -/
def lineOf (terminator : Message → List Nat) (c : NoteCode) : Option (List Nat) :=
  (messageOf c).map fun m => m.bytes ++ terminator m

/-! ### The projection (R100) -/

/-- `led1` (R101). -/
def led1Of (s : DevState) : Bool := s.getLsbD 1

/-- `led2` (R102). -/
def led2Of (s : DevState) : Bool := s.getLsbD 0

/-- `project(s)` (R100). -/
def project (s : DevState) : Bool × Bool × Message := (led1Of s, led2Of s, .status s)

/-- `out(R)` (R139), with the message that `project` selects. -/
def outOf (r : Regs) : Outputs :=
  { led1 := led1Of r.state, led2 := led2Of r.state, message := .status r.state,
    noteValid := r.noteValid, noteCode := r.noteCode }

/-- The output word OUT6 (R53). -/
def Outputs.word (o : Outputs) : OutWord :=
  BitVec.ofNat 6 (bitAt o.led1 5 + bitAt o.led2 4 + bitAt o.noteValid 3 + o.noteCode.toNat)

/-! ### The operations -/

/-- `PROJ.ONE` (R100). -/
def execProjOne (s : State) : Host.Outcome State Fault Refusal :=
  .next (s.drive false false (.status stOne))

/-- `PROJ.TWO` (R100). -/
def execProjTwo (s : State) : Host.Outcome State Fault Refusal :=
  .next (s.drive false true (.status stTwo))

/-- `PROJ.THREE` (R100). -/
def execProjThree (s : State) : Host.Outcome State Fault Refusal :=
  .next (s.drive true false (.status stThree))

/-- `PROJ.FOUR` (R100). -/
def execProjFour (s : State) : Host.Outcome State Fault Refusal :=
  .next (s.drive true true (.status stFour))

/-- `NOTE.S1` (R105, second branch with the new state `ONE`). -/
def execNoteS1 (s : State) : Host.Outcome State Fault Refusal := .next (s.notify (statusCode stOne))

/-- `NOTE.S2` (R105). -/
def execNoteS2 (s : State) : Host.Outcome State Fault Refusal := .next (s.notify (statusCode stTwo))

/-- `NOTE.S3` (R105). -/
def execNoteS3 (s : State) : Host.Outcome State Fault Refusal := .next (s.notify (statusCode stThree))

/-- `NOTE.S4` (R105). -/
def execNoteS4 (s : State) : Host.Outcome State Fault Refusal := .next (s.notify (statusCode stFour))

/-- `NOTE.INV` (R106). -/
def execNoteInv (s : State) : Host.Outcome State Fault Refusal := .next s.reportInvalid

/-- `NOTE.RSVD` (R51, R105): the codes 5 to 7 are never written and a consumer ignores them, so nothing happens
(log entry 10). -/
def execNoteRsvd (s : State) : Host.Outcome State Fault Refusal := .next s

end Sys2Proof.Machine
end

