-- ==== Sys2Proof/Machine/ResetOp.lean ====
section
/-! DEFINITION. `RESET` (`70_reset_and_hazards.md` R170). -/

namespace Sys2Proof.Machine

/-- `RESET` (R170, R23): every register takes its reset value, whatever the other inputs were. -/
def execReset (s : State) : Host.Outcome State Fault Refusal := .next s.resetRegs

end Sys2Proof.Machine
end

