-- ==== Sys2Proof/Machine/Sequencer.lean ====
section
/-! DEFINITION. The dispatch sequencer (`44_dispatch_arbiter.md`): `SEQ.IDLE`, `FIRE.GRANT`, `FIRE.HOLD`, `SEQ.RSVD`. -/

namespace Sys2Proof.Machine

/-- `SEQ.IDLE` (R131): `phase`, `svc` and `timer` keep their values. -/
def execSeqIdle (s : State) : Host.Outcome State Fault Refusal := .next (s.setPhase phIdle)

/-- `FIRE.GRANT` (R133): the confirmed event of the serviced button (R77) is applied; the sequencer returns to `IDLE`. -/
def execFireGrant (s : State) : Host.Outcome State Fault Refusal :=
  .next ((s.applyEvent (Button.event s.regs.svc)).setPhase phIdle)

/-- `FIRE.HOLD` (R134): the byte has the cycle; the button event waits. -/
def execFireHold (s : State) : Host.Outcome State Fault Refusal := .next (s.setPhase phFire)

/-- `SEQ.RSVD` (R137): the reserved phase goes to `IDLE` and writes nothing else. -/
def execSeqRsvd (s : State) : Host.Outcome State Fault Refusal := .next (s.setPhase phIdle)

end Sys2Proof.Machine
end

