-- ==== Sys2Proof/Machine/Dispatch.lean ====
section
/-! DEFINITION. One arm for each operation of `opcode_table.json`. -/

namespace Sys2Proof.Machine

def exec (i : Instr) (s : State) : Host.Outcome State Fault Refusal :=
  match i with
  | .cmdL => Sys2Proof.Machine.execCmdL s
  | .cmdR => Sys2Proof.Machine.execCmdR s
  | .cmdInv _ => Sys2Proof.Machine.execCmdInv s
  | .evNone => Sys2Proof.Machine.execEvNone s
  | .evLeft => Sys2Proof.Machine.execEvLeft s
  | .evRight => Sys2Proof.Machine.execEvRight s
  | .evRsvd => Sys2Proof.Machine.execEvRsvd s
  | .seqIdle _ _ _ => Sys2Proof.Machine.execSeqIdle s
  | .svcStartL _ _ _ _ => Sys2Proof.Machine.execSvcStartL s
  | .svcStartR _ _ _ => Sys2Proof.Machine.execSvcStartR s
  | .settleTick _ _ _ _ => Sys2Proof.Machine.execSettleTick s
  | .resampleConfirm _ _ _ => Sys2Proof.Machine.execResampleConfirm s
  | .resampleDrop _ _ _ => Sys2Proof.Machine.execResampleDrop s
  | .fireGrant _ _ _ _ => Sys2Proof.Machine.execFireGrant s
  | .fireHold _ _ _ _ => Sys2Proof.Machine.execFireHold s
  | .seqRsvd _ _ _ _ _ => Sys2Proof.Machine.execSeqRsvd s
  | .edgeFall x => Sys2Proof.Machine.execEdgeFall x s
  | .edgeLow x => Sys2Proof.Machine.execEdgeLow x s
  | .edgeRise x => Sys2Proof.Machine.execEdgeRise x s
  | .edgeHigh x => Sys2Proof.Machine.execEdgeHigh x s
  | .projOne => Sys2Proof.Machine.execProjOne s
  | .projTwo => Sys2Proof.Machine.execProjTwo s
  | .projThree => Sys2Proof.Machine.execProjThree s
  | .projFour => Sys2Proof.Machine.execProjFour s
  | .noteS1 => Sys2Proof.Machine.execNoteS1 s
  | .noteS2 => Sys2Proof.Machine.execNoteS2 s
  | .noteS3 => Sys2Proof.Machine.execNoteS3 s
  | .noteS4 => Sys2Proof.Machine.execNoteS4 s
  | .noteInv => Sys2Proof.Machine.execNoteInv s
  | .noteRsvd _ => Sys2Proof.Machine.execNoteRsvd s
  | .reset _ _ _ _ => Sys2Proof.Machine.execReset s

end Sys2Proof.Machine
end

