-- ==== Sys2Proof/Machine/Cycle.lean ====
section
/-! DEFINITION. One clock cycle: which patterns the sub-blocks see, each decoded and run, and the clock edge.
`44_dispatch_arbiter.md` R138 composes the same rules into one function, `nextRegs` of Machine/Next.lean; that the two
agree is stated for the provers. -/

namespace Sys2Proof.Machine

/-- What the notification port's logic sees (R105): the invalid code, or the status code of the new state, or nothing. -/
def notePatterns (r : Regs) (w : InWord) : List Pattern :=
  if cmdInvalid w then [⟨.note3, noteInvCode.toNat⟩]
  else if announces (evOf r w) then [⟨.note3, (statusCode (transition r.state (evOf r w))).toNat⟩]
  else []

/-- What the command decoder sees: the byte, in a cycle with `rx_valid` = 1 only (R119). -/
def cmdPatterns (w : InWord) : List Pattern :=
  if InWord.rxValid w then [⟨.cmd8, (InWord.rxData w).toNat⟩] else []

/-- The patterns of one cycle. The outputs are a function of the registers in every cycle (R4, R139); `RESET` overrides
every other operation (R170; log entry 9). -/
def cyclePatterns (r : Regs) (w : InWord) : List Pattern :=
  ⟨.st2, r.state.toNat⟩ ::
    if InWord.rst w then [⟨.in12, w.toNat⟩]
    else
      [⟨.seq7, seqVector r w⟩, ⟨.edge2 .left, edgeVector r w .left⟩,
        ⟨.edge2 .right, edgeVector r w .right⟩]
        ++ cmdPatterns w ++ [⟨.ev2, (evOf r w).toNat⟩] ++ notePatterns r w

/-- Decode the patterns one after another and run each operation. All of them read `regs`. -/
def runPatterns : List Pattern → State → Host.Outcome State Fault Refusal
  | [], s => .next s
  | p :: ps, s =>
    match decode p.carrier p.word with
    | .ok i => andThen (exec i s) (runPatterns ps)
    | .error e => .refused (.undecodable e)

/-- The patterns the next cycle runs: those of R(t) and I(t), or, where one is presented to a sub-block alone, that one
(log entry 5). -/
def State.patterns (s : State) : List Pattern :=
  match s.presented with
  | some p => [p]
  | none => cyclePatterns s.regs s.input

/-- One clock cycle (R4). -/
def clockCycle (s : State) : Host.Outcome State Fault Refusal :=
  andThen (runPatterns s.patterns s.openCycle) fun t => .next t.closeCycle

/-- Put a table row's bits where the next cycle looks for them: an input word onto the input port, any other pattern to
its sub-block alone (log entries 5 and 6). -/
def State.present (s : State) (c : Carrier) (w : Nat) : State :=
  match c with
  | .in12 => { s with inputs := BitVec.ofNat 12 w :: s.inputs, presented := none }
  | c => { s with presented := some ⟨c, w⟩ }

end Sys2Proof.Machine
end

