-- ==== Sys2Proof/Machine/Step.lean ====
section
/-! DEFINITION. The step, one clock cycle, and where the host puts the next operation. -/

namespace Sys2Proof.Machine

/-- One step of the machine: one clock cycle (`00_scope.md` R4, R5). -/
def step (s : State) : Host.Outcome State Fault Refusal := clockCycle s

/-- The bits of a table row put where the very next step looks for them (log entries 5 and 6). -/
def State.withFetchWord (s : State) (nbits w : Nat) : State :=
  s.present (carrierOfTable nbits w) w

end Sys2Proof.Machine
end

