-- ==== Sys2Proof/Machine/Next.lean ====
section
/-! DEFINITION. The whole-cycle step as the spec writes it in one piece (`44_dispatch_arbiter.md` R138). The machine's
step does not call it: it runs the operations of the table. A statement for the provers says that both give the same
registers. -/

namespace Sys2Proof.Machine

/-- `(phase, svc, timer)` after a cycle (R138). -/
def seqNext (p : Params) (r : Regs) (w : InWord) : Phase × Button × Nat :=
  if r.phase = phIdle then
    if start r .left then (phSettle, .left, p.settleTicks)
    else if start r .right then (phSettle, .right, p.settleTicks)
    else (phIdle, r.svc, r.timer)
  else if r.phase = phSettle then
    if r.timer ≠ 0 then (phSettle, r.svc, r.timer - 1)
    else if pinSvc r w = false then (phFire, r.svc, 0)
    else (phIdle, r.svc, 0)
  else if r.phase = phFire then
    if btnGrant r w then (phIdle, r.svc, r.timer) else (phFire, r.svc, r.timer)
  else (phIdle, r.svc, r.timer)

/-- `(note_valid, note_code)` after a cycle (R105, R138). -/
def noteNext (r : Regs) (w : InWord) : Bool × NoteCode :=
  if cmdInvalid w then (true, noteInvCode)
  else if evOf r w = evCodeLeft ∨ evOf r w = evCodeRight then
    (true, statusCode (transition r.state (evOf r w)))
  else (false, r.noteCode)

/-- `next(R, I)` (R138). -/
def nextRegs (p : Params) (r : Regs) (w : InWord) : Regs :=
  if InWord.rst w then Regs.reset
  else
    { state := transition r.state (evOf r w)
      pendL := pendNext r w .left
      pendR := pendNext r w .right
      prevL := InWord.btnL w
      prevR := InWord.btnR w
      phase := (seqNext p r w).1
      svc := (seqNext p r w).2.1
      timer := (seqNext p r w).2.2
      noteValid := (noteNext r w).1
      noteCode := (noteNext r w).2 }

/-- The registers after a sequence of input words (R139). -/
def runRegs (p : Params) : List InWord → Regs → Regs
  | [], r => r
  | w :: ws, r => runRegs p ws (nextRegs p r w)

end Sys2Proof.Machine
end

