-- ==== Sys2Proof/Safety.lean ====
section
/-! DEFINITION. What counts as a safe run, in the terms the claims use: the invariants of `10_state.md` R24. -/

namespace Sys2Proof.Machine

/-- The invariants of R24 that speak of one state, items 1 to 4. -/
structure RegsInv (p : Params) (r : Regs) : Prop where
  /-- Item 1. -/
  phase_legal : r.phase ≠ phRsvd
  /-- Item 2, first half. -/
  timer_bounded : r.timer ≤ p.settleTicks
  /-- Item 2, second half. -/
  timer_zero : r.phase = phIdle ∨ r.phase = phFire → r.timer = 0
  /-- Item 3. -/
  code_legal : r.noteCode.toNat ≤ 4
  /-- Item 4. -/
  code_names_state : r.noteValid = true → r.noteCode.toNat ≤ 3 → r.noteCode = statusCode r.state

/-- A state between two cycles of the whole block, on legal parameters, whose registers meet R24. -/
structure Inv (s : State) : Prop where
  /-- No pattern is presented to a sub-block alone (log entry 5). -/
  whole_block : s.presented = none
  /-- The parameters meet R3. -/
  params : s.cfg.Wf
  /-- Nothing is half written (log entry 1). -/
  settled : s.upd = s.regs
  /-- R24. -/
  regs : RegsInv s.cfg s.regs

/-- `k` steps, one after another, stopping at a stop. -/
def steps : Nat → State → Host.Outcome State Fault Refusal
  | 0, s => .next s
  | k + 1, s => andThen (step s) (steps k)

/-- The state moved by the command bytes of these words alone, one after another, with no button event and no reset
(R85, R115, R119). -/
def commandsAlone (s : DevState) : List InWord → DevState
  | [] => s
  | w :: ws =>
    match if InWord.rxValid w then decodeByte (InWord.rxData w) else none with
    | some e => commandsAlone (transition s e) ws
    | none => commandsAlone s ws

/-- No falling edge is sampled on either button over these input words, when the last samples were `pl` and `pr` (R65). -/
def noFalls (pl pr : Bool) : List InWord → Bool
  | [] => true
  | w :: ws =>
    (!pl || InWord.btnL w) && (!pr || InWord.btnR w) && noFalls (InWord.btnL w) (InWord.btnR w) ws

end Sys2Proof.Machine
end

