-- ==== Sys2Proof/Certificates/Slice0/Obligations.lean ====
section
/-! DEFINITION. The statements for the provers. `exec` writes R(t+1) into `upd` and reads R(t) from `regs` (log entry 1), so
a statement about one operation speaks of `upd`, and one about a cycle of the `regs` before and after a step. -/

open Sys2Proof Sys2Proof.Machine

/-! ## One operation at a time: what each writes, and that it writes nothing else -/

/-- `CMD.L` and `CMD.R` (R116, R117): the byte's event is applied and announced. -/
def Obligations.CommandByteAppliesItsEvent : Prop :=
  decode .cmd8 0x6C = .ok .cmdL ∧ decode .cmd8 0x72 = .ok .cmdR ∧
  ∀ s : State,
    exec .cmdL s = .next { s with upd := { s.upd with
        state := s.regs.state - 1, noteValid := true, noteCode := statusCode (s.regs.state - 1) } } ∧
    exec .cmdR s = .next { s with upd := { s.upd with
        state := s.regs.state + 1, noteValid := true, noteCode := statusCode (s.regs.state + 1) } }

/-- `CMD.INV` (R118): every byte but the two is one, and is reported. -/
def Obligations.InvalidByteIsReported : Prop :=
  ∀ (s : State) (b : Byte),
    (b ≠ 0x6C#8 → b ≠ 0x72#8 → decode .cmd8 b.toNat = .ok (.cmdInv b)) ∧
    exec (.cmdInv b) s = .next { s with upd := { s.upd with
        state := s.regs.state, noteValid := true, noteCode := 0b100#3 } }

/-- `EV.LEFT` and `EV.RIGHT` (R86, R87). -/
def Obligations.EventsRotateTheState : Prop :=
  decode .ev2 0b01 = .ok .evLeft ∧ decode .ev2 0b10 = .ok .evRight ∧
  ∀ s : State,
    exec .evLeft s = .next { s with upd := { s.upd with
        state := s.regs.state - 1, noteValid := true, noteCode := statusCode (s.regs.state - 1) } } ∧
    exec .evRight s = .next { s with upd := { s.upd with
        state := s.regs.state + 1, noteValid := true, noteCode := statusCode (s.regs.state + 1) } }

/-- `EV.NONE` and `EV.RSVD` (R88, R89): the state keeps its value and nothing is announced. -/
def Obligations.NoEventAndReservedEventKeepTheState : Prop :=
  decode .ev2 0b00 = .ok .evNone ∧ decode .ev2 0b11 = .ok .evRsvd ∧
  ∀ s : State,
    exec .evNone s = .next { s with upd := { s.upd with state := s.regs.state } } ∧
    exec .evRsvd s = .next { s with upd := { s.upd with state := s.regs.state } }

/-- `SEQ.IDLE`, `FIRE.HOLD` and `SEQ.RSVD` (R131, R134, R137): only `phase` is written, with `IDLE`, `FIRE`, `IDLE`. -/
def Obligations.WaitingOperationsWriteOnlyThePhase : Prop :=
  ∀ (s : State) (pl pr tz pin rx : Bool),
    exec (.seqIdle tz pin rx) s = .next { s with upd := { s.upd with phase := 0b00#2 } } ∧
    exec (.fireHold pl pr tz pin) s = .next { s with upd := { s.upd with phase := 0b10#2 } } ∧
    exec (.seqRsvd pl pr tz pin rx) s = .next { s with upd := { s.upd with phase := 0b00#2 } }

/-- `FIRE.GRANT` (R133, R77): the event of the serviced button is applied and announced, the sequencer goes to `IDLE`. -/
def Obligations.GrantAppliesTheButtonsEvent : Prop :=
  ∀ (s : State) (pl pr tz pin : Bool),
    (s.regs.svc = .left →
      exec (.fireGrant pl pr tz pin) s = .next { s with upd := { s.upd with
        state := s.regs.state - 1, noteValid := true, noteCode := statusCode (s.regs.state - 1),
        phase := 0b00#2 } }) ∧
    (s.regs.svc = .right →
      exec (.fireGrant pl pr tz pin) s = .next { s with upd := { s.upd with
        state := s.regs.state + 1, noteValid := true, noteCode := statusCode (s.regs.state + 1),
        phase := 0b00#2 } })

/-- `SVC.START.L` and `SVC.START.R` (R69, and R70 for the flag: it stays set only if its pin falls in this cycle). -/
def Obligations.ServiceStartLoadsTheTimer : Prop :=
  ∀ (s : State) (pr tz pin rx : Bool),
    exec (.svcStartL pr tz pin rx) s = .next { s with upd := { s.upd with
        pendL := s.regs.prevL && !InWord.btnL s.input, svc := .left,
        timer := s.cfg.settleTicks, phase := 0b01#2 } } ∧
    exec (.svcStartR tz pin rx) s = .next { s with upd := { s.upd with
        pendR := s.regs.prevR && !InWord.btnR s.input, svc := .right,
        timer := s.cfg.settleTicks, phase := 0b01#2 } }

/-- `SETTLE.TICK` (R71, R16): a timer that is not 0, the only one with which it fires, falls by one, and nothing else is
written. That a timer of 0 would stay 0 is the model's own (log entry 12, DEDUCED): the spec gives no such case. -/
def Obligations.SettleTickCountsDown : Prop :=
  ∀ (s : State) (pl pr pin rx : Bool),
    ∃ n, exec (.settleTick pl pr pin rx) s = .next { s with upd := { s.upd with timer := n } } ∧
      (s.regs.timer ≠ 0 → n + 1 = s.regs.timer) ∧ (s.regs.timer = 0 → n = 0)

/-- `RESAMPLE.CONFIRM` and `RESAMPLE.DROP` (R72, R73): only `phase` is written. -/
def Obligations.ResampleDecidesThePhase : Prop :=
  ∀ (s : State) (pl pr rx : Bool),
    exec (.resampleConfirm pl pr rx) s = .next { s with upd := { s.upd with phase := 0b10#2 } } ∧
    exec (.resampleDrop pl pr rx) s = .next { s with upd := { s.upd with phase := 0b00#2 } }

/-- `EDGE.FALL` of either button (R65, R67, R68): its flag is set and its sample taken; the other button is untouched. -/
def Obligations.FallingEdgeSetsOnlyItsFlag : Prop :=
  (∀ x : Button, decode (.edge2 x) 0b10 = .ok (.edgeFall x)) ∧
  ∀ s : State,
    exec (.edgeFall .left) s = .next { s with upd := { s.upd with pendL := true, prevL := false } } ∧
    exec (.edgeFall .right) s = .next { s with upd := { s.upd with pendR := true, prevR := false } }

/-- `EDGE.LOW`, `EDGE.RISE`, `EDGE.HIGH` of either button (R66, R68): only the sample is taken. -/
def Obligations.OtherEdgesSetNothing : Prop :=
  (∀ x : Button, decode (.edge2 x) 0b00 = .ok (.edgeLow x) ∧ decode (.edge2 x) 0b01 = .ok (.edgeRise x) ∧
    decode (.edge2 x) 0b11 = .ok (.edgeHigh x)) ∧
  ∀ s : State,
    exec (.edgeLow .left) s = .next { s with upd := { s.upd with prevL := false } } ∧
    exec (.edgeLow .right) s = .next { s with upd := { s.upd with prevR := false } } ∧
    exec (.edgeRise .left) s = .next { s with upd := { s.upd with prevL := true } } ∧
    exec (.edgeRise .right) s = .next { s with upd := { s.upd with prevR := true } } ∧
    exec (.edgeHigh .left) s = .next { s with upd := { s.upd with prevL := true } } ∧
    exec (.edgeHigh .right) s = .next { s with upd := { s.upd with prevR := true } }

/-- `PROJ.ONE` to `PROJ.FOUR` (R100): the LED pair and the message; no register is written. -/
def Obligations.ProjectionDrivesLedsAndMessage : Prop :=
  decode .st2 0b00 = .ok .projOne ∧ decode .st2 0b01 = .ok .projTwo ∧
  decode .st2 0b10 = .ok .projThree ∧ decode .st2 0b11 = .ok .projFour ∧
  ∀ s : State,
    exec .projOne s = .next { s with out := { s.out with led1 := false, led2 := false, message := .status 0 } } ∧
    exec .projTwo s = .next { s with out := { s.out with led1 := false, led2 := true, message := .status 1 } } ∧
    exec .projThree s = .next { s with out := { s.out with led1 := true, led2 := false, message := .status 2 } } ∧
    exec .projFour s = .next { s with out := { s.out with led1 := true, led2 := true, message := .status 3 } }

/-- `NOTE.S1` to `NOTE.S4` and `NOTE.INV` (R105, R106) write their code; `NOTE.RSVD` (R51) writes
nothing, which is the model's choice (log entry 10). -/
def Obligations.NotificationOperationsWriteTheirCode : Prop :=
  [0, 1, 2, 3, 4, 5, 6, 7].map (decode .note3) =
    [.ok .noteS1, .ok .noteS2, .ok .noteS3, .ok .noteS4, .ok .noteInv,
      .ok (.noteRsvd 5#3), .ok (.noteRsvd 6#3), .ok (.noteRsvd 7#3)] ∧
  ∀ (s : State) (n : NoteCode),
    exec .noteS1 s = .next { s with upd := { s.upd with noteValid := true, noteCode := 0 } } ∧
    exec .noteS2 s = .next { s with upd := { s.upd with noteValid := true, noteCode := 1 } } ∧
    exec .noteS3 s = .next { s with upd := { s.upd with noteValid := true, noteCode := 2 } } ∧
    exec .noteS4 s = .next { s with upd := { s.upd with noteValid := true, noteCode := 3 } } ∧
    exec .noteInv s = .next { s with upd := { s.upd with noteValid := true, noteCode := 4 } } ∧
    exec (.noteRsvd n) s = .next s

/-- `RESET` (R170, R23): every register, whatever the ignored bits of the word were. -/
def Obligations.ResetOperationWritesEveryRegister : Prop :=
  ∀ (s : State) (l r v : Bool) (b : Byte),
    exec (.reset l r v b) s = .next { s with upd :=
      { state := 0, pendL := false, pendR := false, prevL := false, prevR := false, phase := 0,
        svc := .left, timer := 0, noteValid := false, noteCode := 0 } }

/-! ## Encodings -/

/-- The patterns of the table, written out from R47, R48, R51, R54, R55, R46 and R52, decode to their operations. -/
def Obligations.PatternsOfTheSpecDecode : Prop :=
  decode .cmd8 0b01101100 = .ok .cmdL ∧ decode .cmd8 0b01110010 = .ok .cmdR ∧
  decode .cmd8 0b01111010 = .ok (.cmdInv 0x7A#8) ∧
  decode .ev2 0b01 = .ok .evLeft ∧ decode .ev2 0b10 = .ok .evRight ∧
  decode .seq7 0b0010000 = .ok (.svcStartL false false false false) ∧
  decode .seq7 0b0001000 = .ok (.svcStartR false false false) ∧
  decode .seq7 0b0100110 = .ok (.resampleDrop false false false) ∧
  decode .seq7 0b1000001 = .ok (.fireHold false false false false) ∧
  decode (.edge2 .left) 0b10 = .ok (.edgeFall .left) ∧
  decode .st2 0b10 = .ok .projThree ∧
  decode .note3 0b100 = .ok .noteInv ∧ decode .note3 0b110 = .ok (.noteRsvd 6#3) ∧
  decode .in12 0xE00 = .ok (.reset true true false 0x00#8)

/-- Decoding an encoded well-formed operation gives it back, with every operand. -/
def Obligations.DecodeOfEncodeIsTheOperation : Prop :=
  ∀ i : Instr, i.wf = true → decode i.carrier (encode i) = .ok i

/-- Every pattern has one meaning: what is decoded encodes to the same pattern, at the same carrier, and is well formed. -/
def Obligations.EncodeOfDecodeIsThePattern : Prop :=
  ∀ (c : Carrier) (w : Nat) (i : Instr), decode c w = .ok i →
    i.carrier = c ∧ encode i = w ∧ i.wf = true

/-- Every pattern of every format is an operation, but for an input word with `rst` = 0, which is the input of a whole
cycle (R57, R52); a number too wide for its format is rejected. -/
def Obligations.OnlyWideNumbersAndPlainInputWordsAreRejected : Prop :=
  ∀ (c : Carrier) (w : Nat),
    (2 ^ c.width ≤ w → decode c w = .error (.tooWide c)) ∧
    (c ≠ .in12 → w < 2 ^ c.width → ∃ i, decode c w = .ok i) ∧
    (c = .in12 → w < 0x800 → decode c w = .error (.noOperation .in12)) ∧
    (c = .in12 → 0x800 ≤ w → w < 0x1000 → ∃ i, decode c w = .ok i)

/-- R54: "The nine patterns are disjoint and cover all 128 values": for each value exactly one row of the sequencer's
table matches. -/
def Obligations.ExactlyOneSequencerPatternMatches : Prop :=
  seqRows.map (fun r => (r.mask, r.value)) =
    [(0x78, 0x00), (0x70, 0x10), (0x78, 0x08), (0x64, 0x20), (0x66, 0x24), (0x66, 0x26),
      (0x61, 0x40), (0x61, 0x41), (0x60, 0x60)] ∧
  [0x00, 0x10, 0x08, 0x20, 0x24, 0x26, 0x40, 0x41, 0x60].map (decode .seq7) =
    [.ok (.seqIdle false false false), .ok (.svcStartL false false false false),
      .ok (.svcStartR false false false), .ok (.settleTick false false false false),
      .ok (.resampleConfirm false false false), .ok (.resampleDrop false false false),
      .ok (.fireGrant false false false false), .ok (.fireHold false false false false),
      .ok (.seqRsvd false false false false false)] ∧
  (∀ w, w < 128 → (seqRows.filter fun r => r.hits w).length = 1) ∧
  ∀ (r : Regs) (w : InWord),
    seqVector r w / 32 = r.phase.toNat ∧ (seqVector r w).testBit 4 = r.pendL ∧
    (seqVector r w).testBit 3 = r.pendR ∧ (seqVector r w).testBit 2 = decide (r.timer = 0) ∧
    (seqVector r w).testBit 1 = (match r.svc with | .left => InWord.btnL w | .right => InWord.btnR w) ∧
    (seqVector r w).testBit 0 = InWord.rxValid w

/-- R119 and R115: a cycle with a byte is of exactly one class, a cycle without one of none; and `decode_byte`. -/
def Obligations.EveryByteHasExactlyOneClass : Prop :=
  (∀ w : InWord,
    (cmdLeft w = true ↔ InWord.rxValid w = true ∧ InWord.rxData w = 0x6C#8) ∧
    (cmdRight w = true ↔ InWord.rxValid w = true ∧ InWord.rxData w = 0x72#8) ∧
    (cmdInvalid w = true ↔
      InWord.rxValid w = true ∧ InWord.rxData w ≠ 0x6C#8 ∧ InWord.rxData w ≠ 0x72#8) ∧
    [cmdLeft w, cmdRight w, cmdInvalid w].count true = (if InWord.rxValid w = true then 1 else 0)) ∧
  decodeByte 0x6C#8 = some 0b01#2 ∧ decodeByte 0x72#8 = some 0b10#2 ∧
  ∀ b : Byte, b ≠ 0x6C#8 → b ≠ 0x72#8 → decodeByte b = none

/-- R52: where the fields of the input word stand; and the fields and the word made of them go both ways, so no bit of the
word is dropped. -/
def Obligations.InputWordFieldsRoundTrip : Prop :=
  (∀ (r l b v : Bool) (d : Byte),
    InWord.rst (InWord.make r l b v d) = r ∧ InWord.btnL (InWord.make r l b v d) = l ∧
    InWord.btnR (InWord.make r l b v d) = b ∧ InWord.rxValid (InWord.make r l b v d) = v ∧
    InWord.rxData (InWord.make r l b v d) = d) ∧
  ∀ w : InWord,
    InWord.rst w = w.getLsbD 11 ∧ InWord.btnL w = w.getLsbD 10 ∧ InWord.btnR w = w.getLsbD 9 ∧
    InWord.rxValid w = w.getLsbD 8 ∧ InWord.rxData w = w.extractLsb' 0 8 ∧
    InWord.make (InWord.rst w) (InWord.btnL w) (InWord.btnR w) (InWord.rxValid w) (InWord.rxData w) = w

/-- R53: the output word's bits, from any registers. -/
def Obligations.OutputWordBits : Prop :=
  ∀ r : Regs,
    (outOf r).word.getLsbD 5 = r.state.getLsbD 1 ∧ (outOf r).word.getLsbD 4 = r.state.getLsbD 0 ∧
    (outOf r).word.getLsbD 3 = r.noteValid ∧ (outOf r).word.setWidth 3 = r.noteCode

/-! ## The step runs what is decoded -/

/-- A presented pattern (the model's own way to show a pattern to one sub-block alone, log entry 5): the step is `exec` of
the operation it decodes to, between the opening of the cycle and the clock edge. -/
def Obligations.StepRunsThePresentedOperation : Prop :=
  ∀ (s : State) (p : Pattern) (i : Instr),
    s.presented = some p → decode p.carrier p.word = .ok i →
    step s = andThen (exec i s.openCycle) fun t => .next t.closeCycle

/-- A cycle of the whole block: every pattern the sub-blocks see decodes to a well-formed operation, and the step is
`exec` of these operations, one after another, between the opening of the cycle and the clock edge. THE MODEL'S OWN: that
they run one after another and in which order (log entry 8), and that PROJ runs in a reset cycle too (log entry 9). In the
spec they act at one clock edge (R34); that the order does not matter is OrderInsideACycleIsIrrelevant. -/
def Obligations.StepRunsTheDecodedOperations : Prop :=
  ∀ s : State, s.presented = none →
    ∃ is : List Instr,
      (cyclePatterns s.regs s.input).map (fun p => decode p.carrier p.word) = is.map .ok ∧
      (∀ i ∈ is, i.wf = true) ∧
      step s = andThen (is.foldl (fun o i => andThen o (exec i)) (.next s.openCycle))
        fun t => .next t.closeCycle

/-- A pattern presented to a sub-block alone runs when and only when it decodes to an operation there. THE MODEL'S OWN
(log entry 5): a number too wide for the format is refused, and so is an input word with `rst` = 0, which is a pattern (R52)
but the input of a whole cycle and no operation by itself. -/
def Obligations.PresentedPatternStopsOnlyIfUndecodable : Prop :=
  ∀ (s : State) (p : Pattern), s.presented = some p →
    ((∃ t, step s = .next t) ↔ ∃ i, decode p.carrier p.word = .ok i) ∧
    ∀ e, decode p.carrier p.word = .error e → step s = .refused (.undecodable e)

/-- All registers change at one clock edge (R34), so the order in which the model runs a cycle's operations, which is the
model's own (log entries 8 and 9), does not matter. -/
def Obligations.OrderInsideACycleIsIrrelevant : Prop :=
  ∀ (s : State) (ps : List Pattern), s.presented = none →
    List.Perm ps (cyclePatterns s.regs s.input) →
    (andThen (runPatterns ps s.openCycle) fun t => .next t.closeCycle) = step s

/-- R3: no step changes a parameter, and R4: a cycle uses up one input word. That the parameters stand in State (log entry 3),
the list of words and the cycle count (4), `presented` (5) and `upd` (1) are THE MODEL'S OWN. -/
def Obligations.StepNeverChangesTheParameters : Prop :=
  ∀ s t : State, step s = .next t →
    t.cfg = s.cfg ∧ t.inputs = s.inputs.tail ∧ t.cycle = s.cycle + 1 ∧ t.presented = none ∧ t.upd = t.regs

/-! ## The whole cycle -/

/-- The registers after a step are the spec's `next` (R138), and the ports show the spec's `out` (R139): total, with no fault
and no refusal (R150). The other fields of the next state are THE MODEL'S OWN: `upd` (log entry 1), `cfg` (3), `inputs` and
`cycle` (4), `presented` (5), and the outputs kept in `out` with the message (7). -/
def Obligations.StepIsNextOfTheSpec : Prop :=
  ∀ s : State, s.presented = none →
    step s = .next
      { regs := nextRegs s.cfg s.regs s.input
        upd := nextRegs s.cfg s.regs s.input
        out := outOf s.regs
        cfg := s.cfg
        inputs := s.inputs.tail
        cycle := s.cycle + 1
        presented := none }

/-- The reset state meets the invariants. -/
def Obligations.ResetStateMeetsTheInvariants : Prop := Inv State.reset

/-- R24: every step keeps the invariants. -/
def Obligations.StepKeepsTheInvariants : Prop :=
  ∀ s t : State, Inv s → step s = .next t → Inv t

/-- R24 item 5 and R93: from one cycle to the next `state` keeps its value, or moves by one modulo 4; and it moves exactly
when a command byte is presented or a waiting button event is granted. -/
def Obligations.StateMovesByOneOrNotAtAll : Prop :=
  ∀ s : State, s.presented = none → InWord.rst s.input = false →
    ∃ t, step s = .next t ∧
      (t.regs.state = s.regs.state ∨ t.regs.state = s.regs.state + 1 ∨ t.regs.state = s.regs.state - 1) ∧
      (t.regs.state ≠ s.regs.state ↔
        (InWord.rxValid s.input = true ∧
          (InWord.rxData s.input = 0x6C#8 ∨ InWord.rxData s.input = 0x72#8)) ∨
        (InWord.rxValid s.input = false ∧ s.regs.phase = 0b10#2))

/-- R120, R116, R117: a command byte is applied and announced in its own cycle, whatever the sequencer is doing. -/
def Obligations.CommandIsAppliedInItsCycle : Prop :=
  ∀ s : State, s.presented = none → InWord.rst s.input = false → InWord.rxValid s.input = true →
    ∃ t, step s = .next t ∧
      (InWord.rxData s.input = 0x6C#8 →
        t.regs.state = s.regs.state - 1 ∧ t.regs.noteValid = true ∧
          t.regs.noteCode = statusCode (s.regs.state - 1)) ∧
      (InWord.rxData s.input = 0x72#8 →
        t.regs.state = s.regs.state + 1 ∧ t.regs.noteValid = true ∧
          t.regs.noteCode = statusCode (s.regs.state + 1))

/-- R118, R136: an invalid byte changes no state, is reported, and holds a waiting button event back. -/
def Obligations.InvalidByteChangesNoStateAndHoldsTheArbiter : Prop :=
  ∀ s : State, s.presented = none → InWord.rst s.input = false → InWord.rxValid s.input = true →
    InWord.rxData s.input ≠ 0x6C#8 → InWord.rxData s.input ≠ 0x72#8 →
    ∃ t, step s = .next t ∧ t.regs.state = s.regs.state ∧
      t.regs.noteValid = true ∧ t.regs.noteCode = 0b100#3 ∧
      (s.regs.phase = 0b10#2 → t.regs.phase = 0b10#2 ∧ t.regs.svc = s.regs.svc)

/-- R119: in a cycle with `rx_valid` = 0, `rx_data` is not looked at. -/
def Obligations.ReceiveDataIgnoredWithoutStrobe : Prop :=
  ∀ (s : State) (w w' : InWord) (ws : List InWord), s.presented = none →
    InWord.rst w = false → InWord.rst w' = false →
    InWord.btnL w = InWord.btnL w' → InWord.btnR w = InWord.btnR w' →
    InWord.rxValid w = false → InWord.rxValid w' = false →
    step { s with inputs := w :: ws } = step { s with inputs := w' :: ws }

/-- R170, R23: a cycle with `rst` = 1 gives the reset registers from every state, unreachable ones included, and the other
inputs are ignored. -/
def Obligations.ResetCycleRestoresEveryRegister : Prop :=
  ∀ (s : State) (w : InWord) (ws : List InWord), s.presented = none → s.inputs = w :: ws →
    InWord.rst w = true →
    ∃ t, step s = .next t ∧
      t.regs = { state := 0, pendL := false, pendR := false, prevL := false, prevR := false, phase := 0,
                 svc := .left, timer := 0, noteValid := false, noteCode := 0 } ∧
      (outOf t.regs).word = 0x00#6 ∧
      ∀ w' : InWord, InWord.rst w' = true → step { s with inputs := w' :: ws } = .next t

/-- R172: the first cycle after reset sees no edge, whatever the pins read; its samples are taken. -/
def Obligations.FirstCycleAfterResetSeesNoEdge : Prop :=
  ∀ (s : State) (w0 w1 : InWord) (ws : List InWord), s.presented = none →
    s.inputs = w0 :: w1 :: ws → InWord.rst w0 = true → InWord.rst w1 = false →
    ∃ t, steps 2 s = .next t ∧ t.regs.pendL = false ∧ t.regs.pendR = false ∧
      t.regs.prevL = InWord.btnL w1 ∧ t.regs.prevR = InWord.btnR w1 ∧ t.regs.phase = 0b00#2

/-- R172: buttons held down from reset on produce no event and no notification, however long they are held. -/
def Obligations.ButtonHeldThroughResetDoesNothing : Prop :=
  ∀ (s : State) (w0 : InWord) (ws rest : List InWord), s.presented = none →
    s.inputs = w0 :: ws ++ rest → InWord.rst w0 = true →
    (∀ w ∈ ws, InWord.rst w = false ∧ InWord.btnL w = false ∧ InWord.btnR w = false ∧
      InWord.rxValid w = false) →
    ∃ t, steps (ws.length + 1) s = .next t ∧ t.regs.state = 0b00#2 ∧ t.regs.noteValid = false ∧
      t.regs.pendL = false ∧ t.regs.pendR = false ∧ t.regs.phase = 0b00#2

/-- R65, R67, R69, R70: a flag after a cycle. A falling edge sets it, whatever else happens; without one it is cleared when
its service starts; otherwise it keeps its value. The samples are taken (R68). -/
def Obligations.FlagSetWinsOverClear : Prop :=
  ∀ s : State, s.presented = none → InWord.rst s.input = false →
    ∃ t, step s = .next t ∧ t.regs.prevL = InWord.btnL s.input ∧ t.regs.prevR = InWord.btnR s.input ∧
      t.regs.pendL =
        (if s.regs.prevL = true ∧ InWord.btnL s.input = false then true
          else if s.regs.phase = 0b00#2 ∧ s.regs.pendL = true then false
          else s.regs.pendL) ∧
      t.regs.pendR =
        (if s.regs.prevR = true ∧ InWord.btnR s.input = false then true
          else if s.regs.phase = 0b00#2 ∧ s.regs.pendL = false ∧ s.regs.pendR = true then false
          else s.regs.pendR)

/-- R131, R69: in `IDLE` LEFT is served first, RIGHT only if LEFT has no flag, and with no flag nothing moves. -/
def Obligations.IdleServesLeftFirst : Prop :=
  ∀ s : State, s.presented = none → InWord.rst s.input = false → s.regs.phase = 0b00#2 →
    ∃ t, step s = .next t ∧
      (s.regs.pendL = true →
        t.regs.phase = 0b01#2 ∧ t.regs.svc = .left ∧ t.regs.timer = s.cfg.settleTicks) ∧
      (s.regs.pendL = false → s.regs.pendR = true →
        t.regs.phase = 0b01#2 ∧ t.regs.svc = .right ∧ t.regs.timer = s.cfg.settleTicks) ∧
      (s.regs.pendL = false → s.regs.pendR = false →
        t.regs.phase = 0b00#2 ∧ t.regs.svc = s.regs.svc ∧ t.regs.timer = s.regs.timer)

/-- R71, R72, R73: the settle delay counts down whatever bytes arrive, and then the live pin of the serviced button alone
decides between `FIRE` and `IDLE`. -/
def Obligations.SettleCountsThenResamples : Prop :=
  ∀ s : State, s.presented = none → InWord.rst s.input = false → s.regs.phase = 0b01#2 →
    ∃ t, step s = .next t ∧ t.regs.svc = s.regs.svc ∧
      (InWord.rxValid s.input = false → t.regs.state = s.regs.state ∧ t.regs.noteValid = false) ∧
      (s.regs.timer ≠ 0 → t.regs.phase = 0b01#2 ∧ t.regs.timer + 1 = s.regs.timer) ∧
      (s.regs.timer = 0 → t.regs.timer = 0 ∧
        (InWord.btn s.input s.regs.svc = false → t.regs.phase = 0b10#2) ∧
        (InWord.btn s.input s.regs.svc = true → t.regs.phase = 0b00#2))

/-- R132, R74: while a service is in progress no other starts: `svc` keeps its value, and no flag is cleared. -/
def Obligations.OneServiceAtATime : Prop :=
  ∀ s : State, s.presented = none → InWord.rst s.input = false →
    s.regs.phase = 0b01#2 ∨ s.regs.phase = 0b10#2 →
    ∃ t, step s = .next t ∧ t.regs.svc = s.regs.svc ∧ t.regs.timer ≤ s.regs.timer ∧
      (∀ x : Button, s.regs.pend x = true → t.regs.pend x = true)

/-- R133, R134, R135: in `FIRE`, without a byte the serviced button's event is applied and the sequencer goes to `IDLE`;
with a byte it stays in `FIRE`. `svc` and `timer` keep their values. -/
def Obligations.FireGrantsOrHolds : Prop :=
  ∀ s : State, s.presented = none → InWord.rst s.input = false → s.regs.phase = 0b10#2 →
    ∃ t, step s = .next t ∧ t.regs.svc = s.regs.svc ∧ t.regs.timer = s.regs.timer ∧
      (InWord.rxValid s.input = false →
        t.regs.phase = 0b00#2 ∧ t.regs.noteValid = true ∧ t.regs.noteCode = statusCode t.regs.state ∧
        (s.regs.svc = .left → t.regs.state = s.regs.state - 1) ∧
        (s.regs.svc = .right → t.regs.state = s.regs.state + 1)) ∧
      (InWord.rxValid s.input = true → t.regs.phase = 0b10#2)

/-- R137: the reserved phase does not survive one cycle, and nothing else of the sequencer changes: `svc` and `timer` keep
their values, and a flag changes by a falling edge of its own pin alone (R67). -/
def Obligations.ReservedPhaseRecovers : Prop :=
  ∀ s : State, s.presented = none → InWord.rst s.input = false → s.regs.phase = 0b11#2 →
    ∃ t, step s = .next t ∧ t.regs.phase = 0b00#2 ∧ t.regs.svc = s.regs.svc ∧
      t.regs.timer = s.regs.timer ∧
      (∀ x : Button,
        t.regs.pend x = (s.regs.pend x || (s.regs.prev x && !InWord.btn s.input x))) ∧
      (InWord.rxValid s.input = false → t.regs.state = s.regs.state ∧ t.regs.noteValid = false)

/-- R135: the event code in each of the four cases, and that the reserved code is never produced. -/
def Obligations.ArbiterPriorities : Prop :=
  ∀ (r : Regs) (w : InWord),
    evOf r w ≠ 0b11#2 ∧
    (InWord.rxValid w = true → InWord.rxData w = 0x6C#8 → evOf r w = 0b01#2) ∧
    (InWord.rxValid w = true → InWord.rxData w = 0x72#8 → evOf r w = 0b10#2) ∧
    (InWord.rxValid w = true → InWord.rxData w ≠ 0x6C#8 → InWord.rxData w ≠ 0x72#8 →
      evOf r w = 0b00#2) ∧
    (InWord.rxValid w = false → r.phase = 0b10#2 → r.svc = .left → evOf r w = 0b01#2) ∧
    (InWord.rxValid w = false → r.phase = 0b10#2 → r.svc = .right → evOf r w = 0b10#2) ∧
    (InWord.rxValid w = false → r.phase ≠ 0b10#2 → evOf r w = 0b00#2)

/-! ## Notifications and outputs -/

/-- R105, R92: a notification in the next cycle exactly when a byte is presented or a button event is granted; it is the
invalid code for an invalid byte and otherwise names the new state; with none, the code keeps its value. -/
def Obligations.NotificationExactlyWhenOwed : Prop :=
  ∀ s : State, s.presented = none → InWord.rst s.input = false →
    ∃ t, step s = .next t ∧
      (t.regs.noteValid = true ↔ InWord.rxValid s.input = true ∨ s.regs.phase = 0b10#2) ∧
      (t.regs.noteValid = true →
        t.regs.noteCode =
          (if InWord.rxValid s.input = true ∧ InWord.rxData s.input ≠ 0x6C#8 ∧
              InWord.rxData s.input ≠ 0x72#8 then 0b100#3
            else statusCode t.regs.state)) ∧
      (t.regs.noteValid = false → t.regs.noteCode = s.regs.noteCode)

/-- R109: whatever the state before, in a cycle in which a status notification is presented the LEDs show the state it
names. -/
def Obligations.StatusNotificationNamesTheLeds : Prop :=
  ∀ s t : State, s.presented = none → step s = .next t →
    t.regs.noteValid = true → t.regs.noteCode.toNat ≤ 3 →
    (outOf t.regs).led1 = t.regs.noteCode.getLsbD 1 ∧ (outOf t.regs).led2 = t.regs.noteCode.getLsbD 0

/-- R4, R139, R101, R102: in every cycle, a reset cycle included, the ports show the registers of that cycle. THE MODEL'S
OWN: that the next state keeps what the ports showed, in the field `out` (log entry 7), and that PROJ runs in a reset cycle
too (log entry 9). -/
def Obligations.PortsShowTheRegisters : Prop :=
  ∀ s : State, s.presented = none →
    ∃ t, step s = .next t ∧ t.out.led1 = s.regs.state.getLsbD 1 ∧ t.out.led2 = s.regs.state.getLsbD 0 ∧
      t.out.noteValid = s.regs.noteValid ∧ t.out.noteCode = s.regs.noteCode

/-- R104, R51, R100: the five texts, their bytes, and which code selects which. -/
def Obligations.MessageTable : Prop :=
  (messageOf 0).map Message.text = some "Device state: 1" ∧
  (messageOf 1).map Message.text = some "Device state: 2" ∧
  (messageOf 2).map Message.text = some "Device state: 3" ∧
  (messageOf 3).map Message.text = some "Device state: 4" ∧
  (messageOf 4).map Message.text = some "COMMAND is INVALID" ∧
  (messageOf 0).map Message.bytes =
    some [0x44, 0x65, 0x76, 0x69, 0x63, 0x65, 0x20, 0x73, 0x74, 0x61, 0x74, 0x65, 0x3A, 0x20, 0x31] ∧
  (messageOf 1).map Message.bytes =
    some [0x44, 0x65, 0x76, 0x69, 0x63, 0x65, 0x20, 0x73, 0x74, 0x61, 0x74, 0x65, 0x3A, 0x20, 0x32] ∧
  (messageOf 2).map Message.bytes =
    some [0x44, 0x65, 0x76, 0x69, 0x63, 0x65, 0x20, 0x73, 0x74, 0x61, 0x74, 0x65, 0x3A, 0x20, 0x33] ∧
  (messageOf 3).map Message.bytes =
    some [0x44, 0x65, 0x76, 0x69, 0x63, 0x65, 0x20, 0x73, 0x74, 0x61, 0x74, 0x65, 0x3A, 0x20, 0x34] ∧
  (messageOf 4).map Message.bytes =
    some [0x43, 0x4F, 0x4D, 0x4D, 0x41, 0x4E, 0x44, 0x20, 0x69, 0x73, 0x20, 0x49, 0x4E, 0x56, 0x41, 0x4C,
      0x49, 0x44] ∧
  messageOf 5 = none ∧ messageOf 6 = none ∧ messageOf 7 = none ∧
  ∀ s : DevState, messageOf (statusCode s) = some (project s).2.2

/-- R23: every register after reset, and the output word 0x00. -/
def Obligations.ResetValues : Prop :=
  State.reset.regs =
    { state := 0, pendL := false, pendR := false, prevL := false, prevR := false, phase := 0,
      svc := .left, timer := 0, noteValid := false, noteCode := 0 } ∧
  (outOf State.reset.regs).word = 0x00#6 ∧
  State.reset.cfg = { settleTicks := 20, timerW := 8 }

/-! ## The core by itself -/

/-- R85: all sixteen cases of the transition function. -/
def Obligations.TransitionTable : Prop :=
  (∀ s : DevState, transition s 0b00#2 = s ∧ transition s 0b11#2 = s) ∧
  transition 0 0b01#2 = 3 ∧ transition 1 0b01#2 = 0 ∧ transition 2 0b01#2 = 1 ∧ transition 3 0b01#2 = 2 ∧
  transition 0 0b10#2 = 1 ∧ transition 1 0b10#2 = 2 ∧ transition 2 0b10#2 = 3 ∧ transition 3 0b10#2 = 0

/-- R91: inverse rotations, the full cycle, no fixed point, and two of either event agree. -/
def Obligations.RotationLaws : Prop :=
  ∀ s : DevState,
    transition (transition s 0b01#2) 0b10#2 = s ∧ transition (transition s 0b10#2) 0b01#2 = s ∧
    transition (transition (transition (transition s 0b10#2) 0b10#2) 0b10#2) 0b10#2 = s ∧
    transition (transition (transition (transition s 0b01#2) 0b01#2) 0b01#2) 0b01#2 = s ∧
    transition s 0b01#2 ≠ s ∧ transition s 0b10#2 ≠ s ∧
    transition (transition s 0b01#2) 0b01#2 = transition (transition s 0b10#2) 0b10#2

/-! ## Runs of several cycles -/

/-- R91 item 3 and R92 at the receive port: four `r` bytes, or four `l` bytes, in consecutive cycles bring the state back
to where it was, from every state of the block, and the fourth notification names it. -/
def Obligations.FourEqualCommandsRestoreTheState : Prop :=
  ∀ (s : State) (ws rest : List InWord) (b : Byte), s.presented = none → s.inputs = ws ++ rest →
    ws.length = 4 → b = 0x6C#8 ∨ b = 0x72#8 →
    (∀ w ∈ ws, InWord.rst w = false ∧ InWord.rxValid w = true ∧ InWord.rxData w = b) →
    ∃ t, steps 4 s = .next t ∧ t.regs.state = s.regs.state ∧ t.regs.noteValid = true ∧
      t.regs.noteCode = statusCode s.regs.state

/-- R76, R78: a service that begins in a cycle gives its verdict after `SETTLE_TICKS` + 2 cycles, on the pin of the last of
them alone, whatever bytes and edges come in between: `FIRE` if the pin was low, `IDLE` if it was high. -/
def Obligations.ServiceVerdictAfterTheSettleDelay : Prop :=
  ∀ (s : State) (x : Button) (ws : List InWord) (w : InWord) (rest : List InWord),
    s.presented = none → s.regs.phase = 0b00#2 → s.regs.pend x = true →
    (x = .right → s.regs.pendL = false) →
    s.inputs = ws ++ w :: rest → ws.length = s.cfg.settleTicks + 1 →
    (∀ v ∈ ws ++ [w], InWord.rst v = false) →
    ∃ t, steps (s.cfg.settleTicks + 2) s = .next t ∧ t.regs.svc = x ∧ t.regs.timer = 0 ∧
      t.regs.phase = if InWord.btn w x = true then 0b00#2 else 0b10#2

/-- R184: a clean press. The block is idle with no flags, button `x` falls in the first cycle and stays down through the
re-sample, the other pin does not move, no byte comes: after `SETTLE_TICKS` + 4 cycles the state has moved by one, with its
notification, and the sequencer is idle with no flags. For every `SETTLE_TICKS`, 0 included. -/
def Obligations.CleanPressIsConfirmed : Prop :=
  ∀ (s : State) (x y : Button) (ws : List InWord) (w : InWord) (rest : List InWord),
    s.presented = none → x ≠ y →
    s.regs.phase = 0b00#2 → s.regs.pendL = false → s.regs.pendR = false → s.regs.prev x = true →
    s.inputs = ws ++ w :: rest → ws.length = s.cfg.settleTicks + 3 →
    (∀ v ∈ ws, InWord.btn v x = false) →
    (∀ v ∈ ws ++ [w], InWord.rst v = false ∧ InWord.rxValid v = false ∧
      InWord.btn v y = s.regs.prev y) →
    ∃ t, steps (s.cfg.settleTicks + 4) s = .next t ∧
      t.regs.state = (if x = .left then s.regs.state - 1 else s.regs.state + 1) ∧
      t.regs.noteValid = true ∧ t.regs.noteCode = statusCode t.regs.state ∧
      t.regs.phase = 0b00#2 ∧ t.regs.pendL = false ∧ t.regs.pendR = false

/-- R178, R151: a press that is over before the re-sample is dropped in silence: no state change, no notification, the
sequencer idle again after `SETTLE_TICKS` + 3 cycles. -/
def Obligations.ShortPressIsDroppedInSilence : Prop :=
  ∀ (s : State) (x y : Button) (lows highs rest : List InWord),
    s.presented = none → x ≠ y →
    s.regs.phase = 0b00#2 → s.regs.pendL = false → s.regs.pendR = false → s.regs.prev x = true →
    s.inputs = lows ++ highs ++ rest → lows ≠ [] → highs ≠ [] →
    lows.length + highs.length = s.cfg.settleTicks + 3 →
    (∀ v ∈ lows, InWord.btn v x = false) → (∀ v ∈ highs, InWord.btn v x = true) →
    (∀ v ∈ lows ++ highs, InWord.rst v = false ∧ InWord.rxValid v = false ∧
      InWord.btn v y = s.regs.prev y) →
    ∃ t, steps (s.cfg.settleTicks + 3) s = .next t ∧ t.regs.state = s.regs.state ∧
      t.regs.noteValid = false ∧ t.regs.noteCode = s.regs.noteCode ∧
      t.regs.phase = 0b00#2 ∧ t.regs.pendL = false ∧ t.regs.pendR = false

/-- R184 and R181: both buttons fall in one cycle and are held: after `SETTLE_TICKS` + 4 cycles LEFT has been applied and
announced, and after 2 `SETTLE_TICKS` + 7 cycles RIGHT too, so the state is where it began, the second notification is out,
and nothing is pending. -/
def Obligations.BothButtonsHeldCancel : Prop :=
  ∀ (s : State) (ws rest : List InWord), s.presented = none →
    s.regs.phase = 0b00#2 → s.regs.pendL = false → s.regs.pendR = false →
    s.regs.prevL = true → s.regs.prevR = true →
    s.inputs = ws ++ rest → ws.length = 2 * s.cfg.settleTicks + 7 →
    (∀ v ∈ ws, InWord.rst v = false ∧ InWord.rxValid v = false ∧
      InWord.btnL v = false ∧ InWord.btnR v = false) →
    ∃ t1 t, steps (s.cfg.settleTicks + 4) s = .next t1 ∧ t1.regs.state = s.regs.state - 1 ∧
      t1.regs.noteValid = true ∧ t1.regs.noteCode = statusCode (s.regs.state - 1) ∧
      steps (2 * s.cfg.settleTicks + 7) s = .next t ∧ t.regs.state = s.regs.state ∧
      t.regs.noteValid = true ∧ t.regs.noteCode = statusCode s.regs.state ∧
      t.regs.phase = 0b00#2 ∧ t.regs.pendL = false ∧ t.regs.pendR = false

/-- R134, R140: a confirmed event waits in `FIRE` through any number of cycles with a byte, in which the command bytes
alone move the state, and is applied exactly once, in the first cycle without a byte. -/
def Obligations.WaitingEventIsNeitherLostNorDoubled : Prop :=
  ∀ (s : State) (ws : List InWord) (w : InWord) (rest : List InWord), s.presented = none →
    s.regs.phase = 0b10#2 → s.inputs = ws ++ w :: rest →
    (∀ v ∈ ws, InWord.rst v = false ∧ InWord.rxValid v = true) →
    InWord.rst w = false → InWord.rxValid w = false →
    ∃ t1 t, steps ws.length s = .next t1 ∧ steps (ws.length + 1) s = .next t ∧
      t1.regs.phase = 0b10#2 ∧ t1.regs.svc = s.regs.svc ∧
      t1.regs.state = commandsAlone s.regs.state ws ∧
      t.regs.phase = 0b00#2 ∧
      t.regs.state = (if s.regs.svc = .left then t1.regs.state - 1 else t1.regs.state + 1) ∧
      t.regs.noteValid = true ∧ t.regs.noteCode = statusCode t.regs.state

/-- No event without a falling edge: an idle block with no flags, over any words with no reset, no byte and no falling
edge, keeps its state, stays idle and announces nothing. -/
def Obligations.NoEventWithoutAFallingEdge : Prop :=
  ∀ (s : State) (ws rest : List InWord), s.presented = none →
    s.regs.phase = 0b00#2 → s.regs.pendL = false → s.regs.pendR = false →
    s.inputs = ws ++ rest → ws ≠ [] → noFalls s.regs.prevL s.regs.prevR ws = true →
    (∀ v ∈ ws, InWord.rst v = false ∧ InWord.rxValid v = false) →
    ∃ t, steps ws.length s = .next t ∧ t.regs.state = s.regs.state ∧ t.regs.phase = 0b00#2 ∧
      t.regs.pendL = false ∧ t.regs.pendR = false ∧ t.regs.noteValid = false
end

