-- ==== Sys2Proof/Laws/Decode.lean ====
section
/-! SUPPORT. What the decoder answers at each carrier: one lemma for a whole format. -/

namespace Sys2Proof

/-- CMD8 (R48). -/
theorem decode_cmd8 : ∀ b : Byte, decode .cmd8 b.toNat =
    .ok (if b = Config.cmdLeftByte then .cmdL
      else if b = Config.cmdRightByte then .cmdR else .cmdInv b) := by
  decide

/-- EV2 (R47). -/
theorem decode_ev2 : ∀ e : EvCode, decode .ev2 e.toNat =
    .ok (if e = 0b01#2 then .evLeft else if e = 0b10#2 then .evRight
      else if e = 0b11#2 then .evRsvd else .evNone) := by
  decide

/-- ST2 (R46). -/
theorem decode_st2 : ∀ s : DevState, decode .st2 s.toNat =
    .ok (if s = 0b00#2 then .projOne else if s = 0b01#2 then .projTwo
      else if s = 0b10#2 then .projThree else .projFour) := by
  decide

/-- NOTE3 (R51). -/
theorem decode_note3 : ∀ c : NoteCode, decode .note3 c.toNat =
    .ok (if c = 0#3 then .noteS1 else if c = 1#3 then .noteS2 else if c = 2#3 then .noteS3
      else if c = 3#3 then .noteS4 else if c = 4#3 then .noteInv else .noteRsvd c) := by
  decide

/-- EDGE2 (R55). -/
theorem decode_edge2 (x : Button) (p b : Bool) :
    decode (.edge2 x) (bitAt p 1 + bitAt b 0) =
      .ok (match p, b with
        | true, false => .edgeFall x
        | false, false => .edgeLow x
        | false, true => .edgeRise x
        | true, true => .edgeHigh x) := by
  cases x <;> cases p <;> cases b <;> rfl

/-- SEQ7 (R54), one lemma for each phase. -/
theorem decode_seq7_idle (pl pr tz pin rx : Bool) :
    decode .seq7 ((0b00#2).toNat * 32 + bitAt pl 4 + bitAt pr 3 + bitAt tz 2 + bitAt pin 1 + bitAt rx 0) =
      .ok (if pl then .svcStartL pr tz pin rx
        else if pr then .svcStartR tz pin rx else .seqIdle tz pin rx) := by
  cases pl <;> cases pr <;> cases tz <;> cases pin <;> cases rx <;> rfl

theorem decode_seq7_settle (pl pr tz pin rx : Bool) :
    decode .seq7 ((0b01#2).toNat * 32 + bitAt pl 4 + bitAt pr 3 + bitAt tz 2 + bitAt pin 1 + bitAt rx 0) =
      .ok (if tz then (if pin then .resampleDrop pl pr rx else .resampleConfirm pl pr rx)
        else .settleTick pl pr pin rx) := by
  cases pl <;> cases pr <;> cases tz <;> cases pin <;> cases rx <;> rfl

theorem decode_seq7_fire (pl pr tz pin rx : Bool) :
    decode .seq7 ((0b10#2).toNat * 32 + bitAt pl 4 + bitAt pr 3 + bitAt tz 2 + bitAt pin 1 + bitAt rx 0) =
      .ok (if rx then .fireHold pl pr tz pin else .fireGrant pl pr tz pin) := by
  cases pl <;> cases pr <;> cases tz <;> cases pin <;> cases rx <;> rfl

theorem decode_seq7_rsvd (pl pr tz pin rx : Bool) :
    decode .seq7 ((0b11#2).toNat * 32 + bitAt pl 4 + bitAt pr 3 + bitAt tz 2 + bitAt pin 1 + bitAt rx 0) =
      .ok (.seqRsvd pl pr tz pin rx) := by
  cases pl <;> cases pr <;> cases tz <;> cases pin <;> cases rx <;> rfl

/-- IN12 with `rst` = 1 (R52). -/
theorem decode_in12 (w : InWord) (h : w.getLsbD 11 = true) : decode .in12 w.toNat =
    .ok (.reset (w.getLsbD 10) (w.getLsbD 9) (w.getLsbD 8) (BitVec.ofNat 8 w.toNat)) := by
  have hw := w.isLt
  have hb : w.toNat &&& 0x800 = 0x800 := by
    have h' : w.toNat.testBit 11 = true := h
    have := Nat.and_two_pow w.toNat 11
    simpa [h'] using this
  unfold decode
  rw [if_pos (by simpa [Carrier.width] using hw)]
  have hf : (rowsOf .in12).find? (fun r => r.hits w.toNat) = some (inRows.head (by simp [inRows])) := by
    simp [rowsOf, inRows, Row.hits, hb]
  rw [hf]
  simp [inRows, BitVec.getLsbD]

/-- IN12 with `rst` = 0 is no operation (R52). -/
theorem decode_in12_none (w : Nat) (h : w < 0x800) : decode .in12 w = .error (.noOperation .in12) := by
  have hb : ¬ (w &&& 0x800 = 0x800) := by
    have := Nat.and_two_pow w 11
    have ht : w.testBit 11 = false := Nat.testBit_lt_two_pow (by simpa using h)
    rw [ht] at this
    simp at this
    simp [this]
  unfold decode
  rw [if_pos (by simp [Carrier.width]; omega)]
  have hf : (rowsOf .in12).find? (fun r => r.hits w) = none := by
    simp [rowsOf, inRows, Row.hits, hb]
  rw [hf]

/-- A number too wide for the format is rejected (R58). -/
theorem decode_tooWide (c : Carrier) (w : Nat) (h : 2 ^ c.width ≤ w) : decode c w = .error (.tooWide c) := by
  unfold decode
  rw [if_neg (by omega)]

end Sys2Proof
end

