-- ==== Sys2Proof/Laws/State.lean ====
section
/-! SUPPORT. One lemma for each field and each update of the state, so that no later proof unfolds a record update. -/

namespace Sys2Proof.Machine

variable (s : State)

/-! ### `setState` -/

@[simp] theorem setState_upd (v : DevState) : (s.setState v).upd = { s.upd with state := v } := rfl
@[simp] theorem setState_regs (v : DevState) : (s.setState v).regs = s.regs := rfl
@[simp] theorem setState_out (v : DevState) : (s.setState v).out = s.out := rfl
@[simp] theorem setState_cfg (v : DevState) : (s.setState v).cfg = s.cfg := rfl
@[simp] theorem setState_inputs (v : DevState) : (s.setState v).inputs = s.inputs := rfl
@[simp] theorem setState_cycle (v : DevState) : (s.setState v).cycle = s.cycle := rfl
@[simp] theorem setState_presented (v : DevState) : (s.setState v).presented = s.presented := rfl

/-! ### `setPhase` -/

@[simp] theorem setPhase_upd (v : Phase) : (s.setPhase v).upd = { s.upd with phase := v } := rfl
@[simp] theorem setPhase_regs (v : Phase) : (s.setPhase v).regs = s.regs := rfl
@[simp] theorem setPhase_out (v : Phase) : (s.setPhase v).out = s.out := rfl
@[simp] theorem setPhase_cfg (v : Phase) : (s.setPhase v).cfg = s.cfg := rfl
@[simp] theorem setPhase_inputs (v : Phase) : (s.setPhase v).inputs = s.inputs := rfl
@[simp] theorem setPhase_cycle (v : Phase) : (s.setPhase v).cycle = s.cycle := rfl
@[simp] theorem setPhase_presented (v : Phase) : (s.setPhase v).presented = s.presented := rfl

/-! ### `setSvc` -/

@[simp] theorem setSvc_upd (x : Button) : (s.setSvc x).upd = { s.upd with svc := x } := rfl
@[simp] theorem setSvc_regs (x : Button) : (s.setSvc x).regs = s.regs := rfl
@[simp] theorem setSvc_out (x : Button) : (s.setSvc x).out = s.out := rfl
@[simp] theorem setSvc_cfg (x : Button) : (s.setSvc x).cfg = s.cfg := rfl
@[simp] theorem setSvc_inputs (x : Button) : (s.setSvc x).inputs = s.inputs := rfl
@[simp] theorem setSvc_cycle (x : Button) : (s.setSvc x).cycle = s.cycle := rfl
@[simp] theorem setSvc_presented (x : Button) : (s.setSvc x).presented = s.presented := rfl

/-! ### `setTimer` -/

@[simp] theorem setTimer_upd (n : Nat) : (s.setTimer n).upd = { s.upd with timer := n } := rfl
@[simp] theorem setTimer_regs (n : Nat) : (s.setTimer n).regs = s.regs := rfl
@[simp] theorem setTimer_out (n : Nat) : (s.setTimer n).out = s.out := rfl
@[simp] theorem setTimer_cfg (n : Nat) : (s.setTimer n).cfg = s.cfg := rfl
@[simp] theorem setTimer_inputs (n : Nat) : (s.setTimer n).inputs = s.inputs := rfl
@[simp] theorem setTimer_cycle (n : Nat) : (s.setTimer n).cycle = s.cycle := rfl
@[simp] theorem setTimer_presented (n : Nat) : (s.setTimer n).presented = s.presented := rfl

/-! ### `notify` -/

@[simp] theorem notify_upd (c : NoteCode) : (s.notify c).upd = { s.upd with noteValid := true, noteCode := c } := rfl
@[simp] theorem notify_regs (c : NoteCode) : (s.notify c).regs = s.regs := rfl
@[simp] theorem notify_out (c : NoteCode) : (s.notify c).out = s.out := rfl
@[simp] theorem notify_cfg (c : NoteCode) : (s.notify c).cfg = s.cfg := rfl
@[simp] theorem notify_inputs (c : NoteCode) : (s.notify c).inputs = s.inputs := rfl
@[simp] theorem notify_cycle (c : NoteCode) : (s.notify c).cycle = s.cycle := rfl
@[simp] theorem notify_presented (c : NoteCode) : (s.notify c).presented = s.presented := rfl

/-! ### `resetRegs` -/

@[simp] theorem resetRegs_upd : (s.resetRegs).upd = Regs.reset := rfl
@[simp] theorem resetRegs_regs : (s.resetRegs).regs = s.regs := rfl
@[simp] theorem resetRegs_out : (s.resetRegs).out = s.out := rfl
@[simp] theorem resetRegs_cfg : (s.resetRegs).cfg = s.cfg := rfl
@[simp] theorem resetRegs_inputs : (s.resetRegs).inputs = s.inputs := rfl
@[simp] theorem resetRegs_cycle : (s.resetRegs).cycle = s.cycle := rfl
@[simp] theorem resetRegs_presented : (s.resetRegs).presented = s.presented := rfl

/-! ### `reportInvalid` -/

@[simp] theorem reportInvalid_upd : (s.reportInvalid).upd = { s.upd with noteValid := true, noteCode := noteInvCode } := rfl
@[simp] theorem reportInvalid_regs : (s.reportInvalid).regs = s.regs := rfl
@[simp] theorem reportInvalid_out : (s.reportInvalid).out = s.out := rfl
@[simp] theorem reportInvalid_cfg : (s.reportInvalid).cfg = s.cfg := rfl
@[simp] theorem reportInvalid_inputs : (s.reportInvalid).inputs = s.inputs := rfl
@[simp] theorem reportInvalid_cycle : (s.reportInvalid).cycle = s.cycle := rfl
@[simp] theorem reportInvalid_presented : (s.reportInvalid).presented = s.presented := rfl

/-! ### `setPend` -/

@[simp] theorem setPend_left_upd (v : Bool) : (s.setPend .left v).upd = { s.upd with pendL := v } := rfl
@[simp] theorem setPend_right_upd (v : Bool) : (s.setPend .right v).upd = { s.upd with pendR := v } := rfl
@[simp] theorem setPend_regs (x : Button) (v : Bool) : (s.setPend x v).regs = s.regs := by cases x <;> rfl
@[simp] theorem setPend_out (x : Button) (v : Bool) : (s.setPend x v).out = s.out := by cases x <;> rfl
@[simp] theorem setPend_cfg (x : Button) (v : Bool) : (s.setPend x v).cfg = s.cfg := by cases x <;> rfl
@[simp] theorem setPend_inputs (x : Button) (v : Bool) : (s.setPend x v).inputs = s.inputs := by cases x <;> rfl
@[simp] theorem setPend_cycle (x : Button) (v : Bool) : (s.setPend x v).cycle = s.cycle := by cases x <;> rfl
@[simp] theorem setPend_presented (x : Button) (v : Bool) : (s.setPend x v).presented = s.presented := by cases x <;> rfl

/-! ### `setPrev` -/

@[simp] theorem setPrev_left_upd (v : Bool) : (s.setPrev .left v).upd = { s.upd with prevL := v } := rfl
@[simp] theorem setPrev_right_upd (v : Bool) : (s.setPrev .right v).upd = { s.upd with prevR := v } := rfl
@[simp] theorem setPrev_regs (x : Button) (v : Bool) : (s.setPrev x v).regs = s.regs := by cases x <;> rfl
@[simp] theorem setPrev_out (x : Button) (v : Bool) : (s.setPrev x v).out = s.out := by cases x <;> rfl
@[simp] theorem setPrev_cfg (x : Button) (v : Bool) : (s.setPrev x v).cfg = s.cfg := by cases x <;> rfl
@[simp] theorem setPrev_inputs (x : Button) (v : Bool) : (s.setPrev x v).inputs = s.inputs := by cases x <;> rfl
@[simp] theorem setPrev_cycle (x : Button) (v : Bool) : (s.setPrev x v).cycle = s.cycle := by cases x <;> rfl
@[simp] theorem setPrev_presented (x : Button) (v : Bool) : (s.setPrev x v).presented = s.presented := by cases x <;> rfl

/-! ### `drive` -/

@[simp] theorem drive_out (a b : Bool) (m : Message) :
    (s.drive a b m).out = { s.out with led1 := a, led2 := b, message := m } := rfl
@[simp] theorem drive_regs (a b : Bool) (m : Message) : (s.drive a b m).regs = s.regs := rfl
@[simp] theorem drive_upd (a b : Bool) (m : Message) : (s.drive a b m).upd = s.upd := rfl
@[simp] theorem drive_cfg (a b : Bool) (m : Message) : (s.drive a b m).cfg = s.cfg := rfl
@[simp] theorem drive_inputs (a b : Bool) (m : Message) : (s.drive a b m).inputs = s.inputs := rfl
@[simp] theorem drive_cycle (a b : Bool) (m : Message) : (s.drive a b m).cycle = s.cycle := rfl
@[simp] theorem drive_presented (a b : Bool) (m : Message) : (s.drive a b m).presented = s.presented := rfl

/-! ### `openCycle` -/

@[simp] theorem openCycle_upd : s.openCycle.upd = { s.regs with noteValid := false } := rfl
@[simp] theorem openCycle_out :
    s.openCycle.out = { s.out with noteValid := s.regs.noteValid, noteCode := s.regs.noteCode } := rfl
@[simp] theorem openCycle_regs : s.openCycle.regs = s.regs := rfl
@[simp] theorem openCycle_cfg : s.openCycle.cfg = s.cfg := rfl
@[simp] theorem openCycle_inputs : s.openCycle.inputs = s.inputs := rfl
@[simp] theorem openCycle_cycle : s.openCycle.cycle = s.cycle := rfl
@[simp] theorem openCycle_presented : s.openCycle.presented = s.presented := rfl

/-! ### `closeCycle` -/

@[simp] theorem closeCycle_regs : s.closeCycle.regs = s.upd := rfl
@[simp] theorem closeCycle_upd : s.closeCycle.upd = s.upd := rfl
@[simp] theorem closeCycle_out : s.closeCycle.out = s.out := rfl
@[simp] theorem closeCycle_cfg : s.closeCycle.cfg = s.cfg := rfl
@[simp] theorem closeCycle_inputs : s.closeCycle.inputs = s.inputs.tail := rfl
@[simp] theorem closeCycle_cycle : s.closeCycle.cycle = s.cycle + 1 := rfl
@[simp] theorem closeCycle_presented : s.closeCycle.presented = none := rfl

/-! ### The input word of the cycle -/

/-- A listed word is the input of the cycle. -/
theorem input_of_cons (w : InWord) (ws : List InWord) (h : s.inputs = w :: ws) : s.input = w := by
  simp [State.input, h]

/-- The input word depends on the listed words and the cycle count alone. -/
theorem input_congr (t : State) (hi : t.inputs = s.inputs) (hc : t.cycle = s.cycle) : t.input = s.input := by
  simp [State.input, hi, hc]

@[simp] theorem openCycle_input : s.openCycle.input = s.input := rfl

end Sys2Proof.Machine
end

