-- ==== Sys2Proof/Laws/Ops.lean ====
section
/-! SUPPORT. What each shared operation can do, said once. -/

namespace Sys2Proof.Machine

/-! ### Events -/

/-- Everything that presenting an event does: only the state and the notification registers being written change. -/
theorem applyEvent_eq (s : State) (e : EvCode) :
    s.applyEvent e =
      { s with
        upd :=
          { s.upd with
            state := transition s.regs.state e
            noteValid := announces e || s.upd.noteValid
            noteCode := if announces e then statusCode (transition s.regs.state e) else s.upd.noteCode } } := by
  unfold State.applyEvent
  split <;> simp_all [State.setState, State.notify]

@[simp] theorem applyEvent_regs (s : State) (e : EvCode) : (s.applyEvent e).regs = s.regs := by
  rw [applyEvent_eq]
@[simp] theorem applyEvent_out (s : State) (e : EvCode) : (s.applyEvent e).out = s.out := by
  rw [applyEvent_eq]
@[simp] theorem applyEvent_cfg (s : State) (e : EvCode) : (s.applyEvent e).cfg = s.cfg := by
  rw [applyEvent_eq]
@[simp] theorem applyEvent_inputs (s : State) (e : EvCode) : (s.applyEvent e).inputs = s.inputs := by
  rw [applyEvent_eq]
@[simp] theorem applyEvent_cycle (s : State) (e : EvCode) : (s.applyEvent e).cycle = s.cycle := by
  rw [applyEvent_eq]
@[simp] theorem applyEvent_presented (s : State) (e : EvCode) :
    (s.applyEvent e).presented = s.presented := by
  rw [applyEvent_eq]

/-- LEFT and RIGHT are announced, nothing else is (R92). -/
theorem announces_iff (e : EvCode) : announces e = true ↔ e = evCodeLeft ∨ e = evCodeRight := by
  simp [announces]

/-- The event of a button is always announced. -/
theorem announces_event (x : Button) : announces (Button.event x) = true := by
  cases x <;> rfl

/-! ### Services -/

/-- Everything that starting a LEFT service does. -/
theorem startService_left (s : State) :
    s.startService .left =
      { s with
        upd :=
          { s.upd with
            pendL := fall s.regs s.input .left
            svc := .left
            timer := s.cfg.settleTicks
            phase := phSettle } } := rfl

/-- Everything that starting a RIGHT service does. -/
theorem startService_right (s : State) :
    s.startService .right =
      { s with
        upd :=
          { s.upd with
            pendR := fall s.regs s.input .right
            svc := .right
            timer := s.cfg.settleTicks
            phase := phSettle } } := rfl

/-! ### Sequencing -/

@[simp] theorem andThen_next (s : State) (f : State → Host.Outcome State Fault Refusal) :
    andThen (.next s) f = f s := rfl

/-- `andThen` answers a next state only through a next state. -/
theorem andThen_eq_next (o : Host.Outcome State Fault Refusal)
    (f : State → Host.Outcome State Fault Refusal) (t : State) (h : andThen o f = .next t) :
    ∃ s, o = .next s ∧ f s = .next t := by
  cases o with
  | next s => exact ⟨s, rfl, h⟩
  | fault r => exact nomatch h
  | refused r => exact nomatch h

/-! ### Signals -/

/-- The condition vector's timer bit. -/
theorem timerZero_iff (r : Regs) : timerZero r = true ↔ r.timer = 0 := by
  simp [timerZero]

/-- A phase is one of four. -/
theorem phase_cases : ∀ p : Phase, p = phIdle ∨ p = phSettle ∨ p = phFire ∨ p = phRsvd := by
  decide

/-- An event code is one of four. -/
theorem ev_cases : ∀ e : EvCode, e = evCodeNone ∨ e = evCodeLeft ∨ e = evCodeRight ∨ e = evCodeRsvd := by
  decide

/-- A byte is of exactly one class when there is one (R119). -/
theorem cmd_classes (w : InWord) :
    InWord.rxValid w = (cmdLeft w || cmdRight w || cmdInvalid w) := by
  unfold cmdLeft cmdRight cmdInvalid
  cases InWord.rxValid w <;> simp
  by_cases h1 : InWord.rxData w = Config.cmdLeftByte <;>
    by_cases h2 : InWord.rxData w = Config.cmdRightByte <;> simp [h1, h2]

end Sys2Proof.Machine
end

