-- ==== Sys2Proof/Laws/Exec.lean ====
section
/-! SUPPORT. What no operation touches: each reads the registers R(t) and writes R(t+1) or the output ports. -/

namespace Sys2Proof.Machine

/-- Every operation answers a next state, in every state (R57: nothing traps). -/
theorem exec_completes (i : Instr) (s : State) : ∃ t, exec i s = .next t := by
  cases i <;> exact ⟨_, rfl⟩

/-- No operation changes the registers being read, the parameters, the input words, the cycle count or a presented
pattern. -/
theorem exec_frame (i : Instr) (s t : State) (h : exec i s = .next t) :
    t.regs = s.regs ∧ t.cfg = s.cfg ∧ t.inputs = s.inputs ∧ t.cycle = s.cycle
      ∧ t.presented = s.presented := by
  cases i with
  | edgeFall x => cases x <;> (injection h with h; subst h; exact ⟨rfl, rfl, rfl, rfl, rfl⟩)
  | edgeLow x => cases x <;> (injection h with h; subst h; exact ⟨rfl, rfl, rfl, rfl, rfl⟩)
  | edgeRise x => cases x <;> (injection h with h; subst h; exact ⟨rfl, rfl, rfl, rfl, rfl⟩)
  | edgeHigh x => cases x <;> (injection h with h; subst h; exact ⟨rfl, rfl, rfl, rfl, rfl⟩)
  | fireGrant pl pr tz pin =>
    injection h with h
    subst h
    simp
  | _ => injection h with h; subst h; exact ⟨rfl, rfl, rfl, rfl, rfl⟩

/-- Running patterns is running the decoded operations one after another. -/
theorem runPatterns_cons (p : Pattern) (ps : List Pattern) (i : Instr) (s : State)
    (h : decode p.carrier p.word = .ok i) :
    runPatterns (p :: ps) s = andThen (exec i s) (runPatterns ps) := by
  simp [runPatterns, h]

/-- Patterns run one list after the other. -/
theorem runPatterns_append (ps qs : List Pattern) (s : State) :
    runPatterns (ps ++ qs) s = andThen (runPatterns ps s) (runPatterns qs) := by
  induction ps generalizing s with
  | nil => rfl
  | cons p ps ih =>
    simp only [List.cons_append, runPatterns]
    cases decode p.carrier p.word with
    | error e => rfl
    | ok i =>
      obtain ⟨t, ht⟩ := exec_completes i s
      simp [ht, ih]

/-- A step with a presented pattern runs the operation it decodes to, alone. -/
theorem clockCycle_presented (s : State) (p : Pattern) (h : s.presented = some p) :
    clockCycle s = andThen (runPatterns [p] s.openCycle) fun t => .next t.closeCycle := by
  simp [clockCycle, State.patterns, h]

/-- A step of the whole block runs the patterns of R(t) and I(t). -/
theorem clockCycle_whole (s : State) (h : s.presented = none) :
    clockCycle s =
      andThen (runPatterns (cyclePatterns s.regs s.input) s.openCycle) fun t => .next t.closeCycle := by
  simp [clockCycle, State.patterns, h]

end Sys2Proof.Machine
end

