-- ==== Sys2Proof/Laws/Cycle.lean ====
section
/-! SUPPORT. What each sub-block's pattern does when it is run: one lemma for each carrier, in the form "these fields
of the registers being written take these values". The conditions are those of the registers being read. -/

namespace Sys2Proof.Machine

/-- The registers being written, after the sequencer's operation of a cycle (R131 to R137, R69 to R73). -/
def seqWrites (p : Params) (r : Regs) (w : InWord) (u : Regs) : Regs :=
  { u with
    state := if btnGrant r w then transition r.state (Button.event r.svc) else u.state
    pendL := if start r .left then fall r w .left else u.pendL
    pendR := if start r .right then fall r w .right else u.pendR
    phase := if r.phase = phSettle ∧ r.timer ≠ 0 then u.phase
      else if r.phase = phIdle then (if r.pendL || r.pendR then phSettle else phIdle)
      else if r.phase = phSettle then (if pinSvc r w then phIdle else phFire)
      else if r.phase = phFire then (if InWord.rxValid w then phFire else phIdle)
      else phIdle
    svc := if start r .left then .left else if start r .right then .right else u.svc
    timer := if start r .left || start r .right then p.settleTicks
      else if r.phase = phSettle ∧ r.timer ≠ 0 then r.timer - 1 else u.timer
    noteValid := btnGrant r w || u.noteValid
    noteCode := if btnGrant r w then
      statusCode (transition r.state (Button.event r.svc)) else u.noteCode }

/-- The sequencer's pattern. -/
theorem runs_seq (s : State) (r : Regs) (w : InWord) (hr : r = s.regs) (hw : w = s.input) :
    runPatterns [⟨.seq7, seqVector r w⟩] s = .next { s with upd := seqWrites s.cfg r w s.upd } := by
  subst hr hw
  have hne : phSettle ≠ phIdle ∧ phFire ≠ phIdle ∧ phFire ≠ phSettle ∧ phRsvd ≠ phIdle ∧
      phRsvd ≠ phSettle ∧ phRsvd ≠ phFire ∧ phIdle ≠ phSettle ∧ phIdle ≠ phFire ∧ phSettle ≠ phFire := by
    decide
  obtain ⟨n1, n2, n3, n4, n5, n6, n7, n8, n9⟩ := hne
  unfold seqVector seqWrites
  rcases phase_cases s.regs.phase with h | h | h | h <;> simp only [h, runPatterns]
  · rw [decode_seq7_idle]
    cases hl : s.regs.pendL <;> cases hr : s.regs.pendR <;>
      simp [start, btnGrant, h, hl, hr, n7, n8, exec, execSvcStartL, execSvcStartR, execSeqIdle,
        startService_left, startService_right, State.setPhase]
  · rw [decode_seq7_settle]
    cases ht : timerZero s.regs <;> cases hp : pinSvc s.regs s.input <;> simp [timerZero] at ht <;>
      simp [start, btnGrant, h, ht, n1, n9, exec, execSettleTick, execResampleConfirm,
        execResampleDrop, State.setPhase, State.setTimer]
  · rw [decode_seq7_fire]
    cases hv : InWord.rxValid s.input <;>
      simp [start, btnGrant, h, hv, n2, n3, exec, execFireGrant, execFireHold, State.setPhase,
        applyEvent_eq, announces_event]
  · rw [decode_seq7_rsvd]
    simp [start, btnGrant, h, n4, n5, n6, exec, execSeqRsvd, State.setPhase]

/-- The LEFT edge detector's pattern (R65 to R68). -/
theorem runs_edge_left (s : State) (r : Regs) (w : InWord) :
    runPatterns [⟨.edge2 .left, edgeVector r w .left⟩] s = .next { s with upd :=
      { s.upd with pendL := fall r w .left || s.upd.pendL, prevL := InWord.btnL w } } := by
  unfold edgeVector fall
  simp only [runPatterns, decode_edge2]
  cases h1 : r.prev .left <;> cases h2 : InWord.btn w .left <;>
    simp_all [InWord.btn, exec, execEdgeFall, execEdgeHigh, execEdgeLow, execEdgeRise, State.raisePend,
      State.setPend, State.setPrev]

/-- The RIGHT edge detector's pattern (R65 to R68). -/
theorem runs_edge_right (s : State) (r : Regs) (w : InWord) :
    runPatterns [⟨.edge2 .right, edgeVector r w .right⟩] s = .next { s with upd :=
      { s.upd with pendR := fall r w .right || s.upd.pendR, prevR := InWord.btnR w } } := by
  unfold edgeVector fall
  simp only [runPatterns, decode_edge2]
  cases h1 : r.prev .right <;> cases h2 : InWord.btn w .right <;>
    simp_all [InWord.btn, exec, execEdgeFall, execEdgeHigh, execEdgeLow, execEdgeRise, State.raisePend,
      State.setPend, State.setPrev]

/-- The command decoder's pattern, if there is one (R119). -/
theorem runs_cmd (s : State) (w : InWord) : runPatterns (cmdPatterns w) s = .next
    (if cmdLeft w then s.applyEvent evCodeLeft
      else if cmdRight w then s.applyEvent evCodeRight
      else if cmdInvalid w then (s.applyEvent evCodeNone).reportInvalid else s) := by
  unfold cmdPatterns cmdLeft cmdRight cmdInvalid
  cases h : InWord.rxValid w
  · simp [runPatterns]
  · simp only [if_true, runPatterns, decode_cmd8]
    by_cases h1 : InWord.rxData w = Config.cmdLeftByte
    · simp [h1, exec, execCmdL]
    · by_cases h2 : InWord.rxData w = Config.cmdRightByte
      · have : ¬ Config.cmdRightByte = Config.cmdLeftByte := by decide
        simp [h2, exec, execCmdR, this]
      · simp [h1, h2, exec, execCmdInv]

/-- The event bus' pattern (R85). -/
theorem runs_ev (s : State) (e : EvCode) :
    runPatterns [⟨.ev2, e.toNat⟩] s = .next (s.applyEvent e) := by
  rcases ev_cases e with h | h | h | h <;> subst h <;> rfl

/-- A status code is never reserved, and names its state (R51). -/
theorem runs_status (s : State) (d : DevState) :
    runPatterns [⟨.note3, (statusCode d).toNat⟩] s = .next (s.notify (statusCode d)) := by
  rcases (by decide : ∀ d : DevState, d = stOne ∨ d = stTwo ∨ d = stThree ∨ d = stFour) d
    with h | h | h | h <;> subst h <;> rfl

/-- The notification's pattern, if there is one (R105). -/
theorem runs_note (s : State) (r : Regs) (w : InWord) : runPatterns (notePatterns r w) s = .next
    (if cmdInvalid w then s.reportInvalid
      else if announces (evOf r w) then s.notify (statusCode (transition r.state (evOf r w))) else s) := by
  unfold notePatterns
  split
  · rfl
  · split
    · exact runs_status s _
    · rfl

/-- The output multiplexer's pattern (R100). -/
theorem runs_proj (s : State) (d : DevState) :
    runPatterns [⟨.st2, d.toNat⟩] s = .next (s.drive (led1Of d) (led2Of d) (.status d)) := by
  rcases (by decide : ∀ d : DevState, d = stOne ∨ d = stTwo ∨ d = stThree ∨ d = stFour) d
    with h | h | h | h <;> subst h <;> rfl

/-- The input word with `rst` = 1 (R170). -/
theorem runs_reset (s : State) (w : InWord) (h : InWord.rst w = true) :
    runPatterns [⟨.in12, w.toNat⟩] s = .next s.resetRegs := by
  simp [runPatterns, decode_in12 w h, exec, execReset]

/-- A cycle with `rst` = 0 is its six sub-blocks' patterns one after another. -/
theorem runs_cycle (s : State) (r : Regs) (w : InWord) (h : InWord.rst w = false) :
    runPatterns (cyclePatterns r w) s =
      andThen (runPatterns [⟨.st2, r.state.toNat⟩] s) fun s1 =>
      andThen (runPatterns [⟨.seq7, seqVector r w⟩] s1) fun s2 =>
      andThen (runPatterns [⟨.edge2 .left, edgeVector r w .left⟩] s2) fun s3 =>
      andThen (runPatterns [⟨.edge2 .right, edgeVector r w .right⟩] s3) fun s4 =>
      andThen (runPatterns (cmdPatterns w) s4) fun s5 =>
      andThen (runPatterns [⟨.ev2, (evOf r w).toNat⟩] s5) (runPatterns (notePatterns r w)) := by
  have hc : cyclePatterns r w = [⟨.st2, r.state.toNat⟩] ++ ([⟨.seq7, seqVector r w⟩] ++
      ([⟨.edge2 .left, edgeVector r w .left⟩] ++ ([⟨.edge2 .right, edgeVector r w .right⟩] ++
      (cmdPatterns w ++ ([⟨.ev2, (evOf r w).toNat⟩] ++ notePatterns r w))))) := by
    simp [cyclePatterns, h]
  rw [hc]
  have step_eq : ∀ (ps qs : List Pattern) (f : State → Host.Outcome State Fault Refusal) (s : State),
      (∀ t, runPatterns qs t = f t) → runPatterns (ps ++ qs) s = andThen (runPatterns ps s) f := by
    intro ps qs f s hf
    rw [runPatterns_append, funext hf]
  refine step_eq _ _ _ s fun s1 => step_eq _ _ _ s1 fun s2 => step_eq _ _ _ s2 fun s3 =>
    step_eq _ _ _ s3 fun s4 => step_eq _ _ _ s4 fun s5 => step_eq _ _ _ s5 fun s6 => rfl

end Sys2Proof.Machine
end

