-- ==== Sys2Proof/Laws/PerInstr.lean ====
section
/-! SUPPORT. Facts about every operation as syntax, one lemma for each constructor. -/

namespace Sys2Proof.Laws.EncodesInWidth

/-- The pattern of a well-formed operation fits its format (`30_encoding.md` R45, R58). -/
def Statement (i : Instr) : Prop := i.wf = true → encode i < 2 ^ i.carrier.width

theorem cmdL : Statement .cmdL := fun _ => by decide
theorem cmdR : Statement .cmdR := fun _ => by decide
theorem cmdInv (b : Byte) : Statement (.cmdInv b) := fun _ => b.isLt
theorem evNone : Statement .evNone := fun _ => by decide
theorem evLeft : Statement .evLeft := fun _ => by decide
theorem evRight : Statement .evRight := fun _ => by decide
theorem evRsvd : Statement .evRsvd := fun _ => by decide
theorem seqIdle (tz pin rx : Bool) : Statement (.seqIdle tz pin rx) := fun _ => by
  revert tz pin rx; decide
theorem svcStartL (pr tz pin rx : Bool) : Statement (.svcStartL pr tz pin rx) := fun _ => by
  revert pr tz pin rx; decide
theorem svcStartR (tz pin rx : Bool) : Statement (.svcStartR tz pin rx) := fun _ => by
  revert tz pin rx; decide
theorem settleTick (pl pr pin rx : Bool) : Statement (.settleTick pl pr pin rx) := fun _ => by
  revert pl pr pin rx; decide
theorem resampleConfirm (pl pr rx : Bool) : Statement (.resampleConfirm pl pr rx) := fun _ => by
  revert pl pr rx; decide
theorem resampleDrop (pl pr rx : Bool) : Statement (.resampleDrop pl pr rx) := fun _ => by
  revert pl pr rx; decide
theorem fireGrant (pl pr tz pin : Bool) : Statement (.fireGrant pl pr tz pin) := fun _ => by
  revert pl pr tz pin; decide
theorem fireHold (pl pr tz pin : Bool) : Statement (.fireHold pl pr tz pin) := fun _ => by
  revert pl pr tz pin; decide
theorem seqRsvd (pl pr tz pin rx : Bool) : Statement (.seqRsvd pl pr tz pin rx) := fun _ => by
  revert pl pr tz pin rx; decide
theorem edgeFall (x : Button) : Statement (.edgeFall x) := fun _ => by cases x <;> decide
theorem edgeLow (x : Button) : Statement (.edgeLow x) := fun _ => by cases x <;> decide
theorem edgeRise (x : Button) : Statement (.edgeRise x) := fun _ => by cases x <;> decide
theorem edgeHigh (x : Button) : Statement (.edgeHigh x) := fun _ => by cases x <;> decide
theorem projOne : Statement .projOne := fun _ => by decide
theorem projTwo : Statement .projTwo := fun _ => by decide
theorem projThree : Statement .projThree := fun _ => by decide
theorem projFour : Statement .projFour := fun _ => by decide
theorem noteS1 : Statement .noteS1 := fun _ => by decide
theorem noteS2 : Statement .noteS2 := fun _ => by decide
theorem noteS3 : Statement .noteS3 := fun _ => by decide
theorem noteS4 : Statement .noteS4 := fun _ => by decide
theorem noteInv : Statement .noteInv := fun _ => by decide
theorem noteRsvd (n : NoteCode) : Statement (.noteRsvd n) := fun _ => n.isLt

theorem reset (l r v : Bool) (b : Byte) : Statement (.reset l r v b) := fun _ => by
  have hb := b.isLt
  cases l <;> cases r <;> cases v <;> simp [encode, Instr.carrier, Carrier.width, bitAt] <;> omega

end Sys2Proof.Laws.EncodesInWidth
end

