-- ==== Sys2Proof/Laws/Safety.lean ====
section
/-! SUPPORT. The small lemmas of the definitions in Safety: runs of several steps, and the words they read. -/

namespace Sys2Proof.Machine

/-- Running on is the same wherever the run is cut. -/
theorem andThen_assoc (o : Host.Outcome State Fault Refusal)
    (f g : State → Host.Outcome State Fault Refusal) :
    andThen (andThen o f) g = andThen o fun s => andThen (f s) g := by
  cases o <;> rfl

@[simp] theorem steps_zero (s : State) : steps 0 s = .next s := rfl

theorem steps_succ (k : Nat) (s : State) : steps (k + 1) s = andThen (step s) (steps k) := rfl

/-- A run of `j + k` steps is a run of `j` and then one of `k`. -/
theorem steps_add (j k : Nat) (s : State) : steps (j + k) s = andThen (steps j s) (steps k) := by
  induction j generalizing s with
  | zero => rw [Nat.zero_add]; rfl
  | succ j ih =>
    rw [Nat.succ_add, steps_succ, steps_succ, andThen_assoc]
    exact congrArg (andThen (step s)) (funext fun t => ih t)

@[simp] theorem commandsAlone_nil (s : DevState) : commandsAlone s [] = s := rfl

/-- A word with a byte moves the state by the event the byte stands for, if any. -/
theorem commandsAlone_cons_byte (s : DevState) (w : InWord) (ws : List InWord)
    (h : InWord.rxValid w = true) :
    commandsAlone s (w :: ws) =
      commandsAlone (transition s ((decodeByte (InWord.rxData w)).getD evCodeNone)) ws := by
  rw [commandsAlone, if_pos h]
  cases decodeByte (InWord.rxData w) <;> rfl

/-- A word without a byte does not move the state. -/
theorem commandsAlone_cons_none (s : DevState) (w : InWord) (ws : List InWord)
    (h : InWord.rxValid w = false) : commandsAlone s (w :: ws) = commandsAlone s ws := by
  simp [commandsAlone, h]

@[simp] theorem noFalls_nil (pl pr : Bool) : noFalls pl pr [] = true := rfl

/-- No word falls if the first does not and none after it does. -/
theorem noFalls_cons (pl pr : Bool) (w : InWord) (ws : List InWord) :
    noFalls pl pr (w :: ws) = true ↔
      (pl = true → InWord.btnL w = true) ∧ (pr = true → InWord.btnR w = true) ∧
        noFalls (InWord.btnL w) (InWord.btnR w) ws = true := by
  cases pl <;> cases pr <;> simp [noFalls, and_assoc]

end Sys2Proof.Machine
end

