-- ==== Sys2Proof/Machine/Stimulus.lean ====
section
/-! DEFINITION. The stimulus notation of `30_encoding.md` R59 and R60: directives, and the assembler that turns them into
input words. It is notation for runs, no part of the block (decision D27). -/

namespace Sys2Proof.Machine

/-- The directives of R59 and the pseudo-directives of R60. -/
inductive Directive where
  | rst (n : Nat)
  | wait (n : Nat)
  | rx (b : Byte)
  | btn (x : Button) (up : Bool)
  | nop
  | sendL
  | sendR
  | press (x : Button) (n : Nat)
  | click (x : Button)
deriving DecidableEq, Repr

/-- The assembler's two variables, the present button levels (R59). -/
structure Levels where
  bl : Bool
  br : Bool
deriving DecidableEq, Repr

/-- Set the level of one button. -/
def Levels.set (v : Levels) (x : Button) (up : Bool) : Levels :=
  match x with
  | .left => { v with bl := up }
  | .right => { v with br := up }

/-- A pseudo-directive's expansion (R60); a plain directive stands for itself. -/
def Directive.expand (settleTicks : Nat) : Directive → List Directive
  | .nop => [.wait 1]
  | .sendL => [.rx Config.cmdLeftByte]
  | .sendR => [.rx Config.cmdRightByte]
  | .press x n => [.btn x false, .wait n, .btn x true]
  | .click x => [.btn x false, .wait (settleTicks + 3), .btn x true, .wait 2]
  | .rst n => [.rst n]
  | .wait n => [.wait n]
  | .rx b => [.rx b]
  | .btn x up => [.btn x up]

/-- The words one plain directive emits, and the levels after it (R59). A pseudo-directive is expanded first and emits
none here. -/
def Directive.emit (v : Levels) : Directive → List InWord × Levels
  | .rst n => (List.replicate n (InWord.make true v.bl v.br false 0#8), v)
  | .wait n => (List.replicate n (InWord.make false v.bl v.br false 0#8), v)
  | .rx b => ([InWord.make false v.bl v.br true b], v)
  | .btn x up => ([], v.set x up)
  | .nop => ([], v)
  | .sendL => ([], v)
  | .sendR => ([], v)
  | .press _ _ => ([], v)
  | .click _ => ([], v)

/-- Assemble expanded directives from given levels. -/
def assembleFrom (v : Levels) : List Directive → List InWord
  | [] => []
  | d :: ds => (d.emit v).1 ++ assembleFrom (d.emit v).2 ds

/-- The words of a program (R59): both buttons are up at the start. -/
def assemble (settleTicks : Nat) (ds : List Directive) : List InWord :=
  assembleFrom ⟨true, true⟩ (ds.flatMap (Directive.expand settleTicks))

end Sys2Proof.Machine
end

