-- ==== Sys2Proof/Tests/Slice0.lean ====
section
/-! SUPPORT. Small tests, each with an expected value written out from the spec, and a witness for the hypotheses of
each statement. Test vectors are those of `95_test_vectors.md` sections 2.1 to 2.10 and 3. -/

namespace Sys2Proof.Tests

open Sys2Proof Sys2Proof.Machine

/-! ## Well-formedness: what the check refuses -/

theorem test_wf_refuses_l_as_invalid : (Instr.cmdInv 0x6C#8).wf = false := by decide
theorem test_wf_refuses_r_as_invalid : (Instr.cmdInv 0x72#8).wf = false := by decide
theorem test_wf_refuses_used_note_code : (Instr.noteRsvd 4#3).wf = false := by decide
theorem test_wf_admits : (Instr.cmdInv 0x4C#8).wf = true ∧ (Instr.noteRsvd 5#3).wf = true := by decide

/-! ## Decoding: each row's pattern, written out from the encoding tables (R46 to R48, R51, R52, R54, R55) -/

/-- A pattern decodes to an operation. -/
def reads (c : Carrier) (w : Nat) (i : Instr) : Bool :=
  match decode c w with
  | .ok j => j == i
  | .error _ => false

theorem test_decode_cmd :
    reads .cmd8 0b01101100 .cmdL ∧ reads .cmd8 0b01110010 .cmdR ∧
    -- capital L and R, and an l with bit 7 set, are invalid (R48)
    reads .cmd8 0b01001100 (.cmdInv 0x4C#8) ∧ reads .cmd8 0b01010010 (.cmdInv 0x52#8) ∧
    reads .cmd8 0b11101100 (.cmdInv 0xEC#8) := by decide

theorem test_decode_ev :
    reads .ev2 0b00 .evNone ∧ reads .ev2 0b01 .evLeft ∧ reads .ev2 0b10 .evRight ∧
    reads .ev2 0b11 .evRsvd := by decide

/-- `phase`, `pend_l`, `pend_r`, `tz`, `pin_svc`, `rx_valid`, from bit 6 down (R54). -/
theorem test_decode_seq_idle :
    reads .seq7 0b0000100 (.seqIdle true false false) ∧
    reads .seq7 0b0010001 (.svcStartL false false false true) ∧
    reads .seq7 0b0011010 (.svcStartL true false true false) ∧
    reads .seq7 0b0001110 (.svcStartR true true false) := by decide

theorem test_decode_seq_settle :
    reads .seq7 0b0110010 (.settleTick true false true false) ∧
    reads .seq7 0b0101100 (.resampleConfirm false true false) ∧
    reads .seq7 0b0110111 (.resampleDrop true false true) := by decide

theorem test_decode_seq_fire :
    reads .seq7 0b1000100 (.fireGrant false false true false) ∧
    reads .seq7 0b1001011 (.fireHold false true false true) ∧
    reads .seq7 0b1111111 (.seqRsvd true true true true true) ∧
    reads .seq7 0b1100000 (.seqRsvd false false false false false) := by decide

theorem test_decode_edge :
    reads (.edge2 .left) 0b10 (.edgeFall .left) ∧ reads (.edge2 .right) 0b00 (.edgeLow .right) ∧
    reads (.edge2 .left) 0b01 (.edgeRise .left) ∧ reads (.edge2 .right) 0b11 (.edgeHigh .right) := by
  decide

theorem test_decode_proj :
    reads .st2 0b00 .projOne ∧ reads .st2 0b01 .projTwo ∧ reads .st2 0b10 .projThree ∧
    reads .st2 0b11 .projFour := by decide

theorem test_decode_note :
    reads .note3 0b000 .noteS1 ∧ reads .note3 0b001 .noteS2 ∧ reads .note3 0b010 .noteS3 ∧
    reads .note3 0b011 .noteS4 ∧ reads .note3 0b100 .noteInv ∧ reads .note3 0b101 (.noteRsvd 5#3) := by
  decide

/-- R52: `rst` is bit 11; 0x972 is a reset with both buttons down and the byte r (95, section 2.9). -/
theorem test_decode_reset :
    reads .in12 0b100101110010 (.reset false false true 0x72#8) ∧
    reads .in12 0xE00 (.reset true true false 0x00#8) := by decide

/-- An input word with `rst` = 0 is no single operation, and a number too wide for its format is rejected. -/
theorem test_decode_rejects :
    decode .in12 0x600 = .error (.noOperation .in12) ∧ decode .ev2 4 = .error (.tooWide .ev2) ∧
    decode .cmd8 256 = .error (.tooWide .cmd8) := by
  refine ⟨by rfl, by rfl, by rfl⟩

/-! ## A table row's bits, and the step that runs them (log entries 5 and 6) -/

theorem test_table_words :
    decodeTableWord 8 0x6C = some .cmdL ∧ decodeTableWord 8 0x72 = some .cmdR ∧
    decodeTableWord 8 0x7A = some (.seqRsvd true true false true false) ∧
    decodeTableWord 8 0xFF = some (.cmdInv 0xFF#8) ∧ decodeTableWord 8 0x01 = some .evLeft ∧
    decodeTableWord 8 0x04 = some .noteInv ∧
    decodeTableWord 8 0x10 = some (.svcStartL false false false false) ∧
    decodeTableWord 16 0x800 = some (.reset false false false 0x00#8) ∧
    decodeTableWord 16 0x600 = none := by decide

/-- The registers after the very next step, from a given outcome. -/
def regsOf : Host.Outcome State Fault Refusal → Option Regs
  | .next t => some t.regs
  | .fault _ => none
  | .refused _ => none

theorem test_fetch_word_runs :
    regsOf (step (State.reset.withFetchWord 8 0x6C)) =
      some { Regs.reset with state := 3#2, noteValid := true, noteCode := 3#3 } ∧
    regsOf (step (State.reset.withFetchWord 8 0x10)) =
      some { Regs.reset with phase := 1#2, timer := 20 } ∧
    regsOf (step (State.reset.withFetchWord 16 0x800)) = some Regs.reset := by decide

/-! ## Single steps -/

/-- Registers written as section 2.10 writes them. -/
def regs (state : DevState) (pendL pendR prevL prevR : Bool) (phase : Phase) (svc : Button) (timer : Nat)
    (noteValid : Bool) (noteCode : NoteCode) : Regs :=
  { state, pendL, pendR, prevL, prevR, phase, svc, timer, noteValid, noteCode }

/-- A block with given registers and input words. -/
def block (settle : Nat) (r : Regs) (ws : List InWord) : State :=
  { State.reset with regs := r, upd := r, inputs := ws, cfg := { settleTicks := settle, timerW := 8 } }

/-- The registers after one cycle, with `SETTLE_TICKS` = 3. -/
def after (r : Regs) (w : InWord) : Option Regs := regsOf (step (block 3 r [w]))

-- Section 2.10, rows 1 to 12.
theorem test_corner_1 : after (regs 0 false false true true 0 .left 0 false 0) 0x000 =
    some (regs 0 true true false false 0 .left 0 false 0) := by decide
theorem test_corner_2 : after (regs 0 true true false false 0 .left 0 false 0) 0x000 =
    some (regs 0 false true false false 1 .left 3 false 0) := by decide
theorem test_corner_3 : after (regs 0 false false true true 0 .left 0 false 0) 0x16C =
    some (regs 3 true true false false 0 .left 0 true 3) := by decide
theorem test_corner_4 : after (regs 3 false false false true 2 .left 0 false 3) 0x372 =
    some (regs 0 false false false true 2 .left 0 true 0) := by decide
theorem test_corner_5 : after (regs 0 false false false true 2 .left 0 true 0) 0x200 =
    some (regs 3 false false false true 0 .left 0 true 3) := by decide
theorem test_corner_6 : after (regs 1 false false true true 1 .left 2 false 1) 0x772 =
    some (regs 2 false false true true 1 .left 1 true 2) := by decide
theorem test_corner_7 : after (regs 1 false false true true 1 .right 0 false 1) 0x400 =
    some (regs 1 false true true false 2 .right 0 false 1) := by decide
theorem test_corner_8 : after (regs 1 false false false true 1 .left 0 false 1) 0x600 =
    some (regs 1 false false true true 0 .left 0 false 1) := by decide
theorem test_corner_9 : after (regs 2 true false false true 3 .left 0 false 0) 0x200 =
    some (regs 2 true false false true 0 .left 0 false 0) := by decide
theorem test_corner_10 : after (regs 2 false false true true 3 .right 0 false 0) 0x76C =
    some (regs 1 false false true true 0 .right 0 true 1) := by decide
theorem test_corner_11 : after (regs 0 false true true true 0 .left 0 false 0) 0x400 =
    some (regs 0 false true true false 1 .right 3 false 0) := by decide
theorem test_corner_12 : after (regs 2 false false true true 0 .right 0 true 4) 0x600 =
    some (regs 2 false false true true 0 .right 0 false 4) := by decide

-- Section 2.3: the other button is down and the serviced one up, and the reserved phase keeps timer and flags.
theorem test_drop_looks_at_serviced_pin : after (regs 0 false false true false 1 .left 0 false 0) 0x400 =
    some (regs 0 false false true false 0 .left 0 false 0) := by decide
theorem test_reserved_keeps_timer : after (regs 0 true true true true 3 .left 2 false 0) 0x600 =
    some (regs 0 true true true true 0 .left 2 false 0) := by decide

-- Section 2.7: one above l is invalid; with `rx_valid` = 0 the byte is ignored.
theorem test_invalid_byte : after (regs 1 false false true true 0 .left 0 false 0) 0x76D =
    some (regs 1 false false true true 0 .left 0 true 4) := by decide
theorem test_no_strobe : after (regs 1 false false true true 0 .left 0 false 0) 0x66C =
    some (regs 1 false false true true 0 .left 0 false 0) := by decide

-- Section 2.9: reset.
theorem test_reset_overrides : after (regs 2 true true true false 2 .right 0 true 4) 0x972 =
    some Regs.reset := by decide
theorem test_reset_unreachable : after (regs 1 false false true true 1 .left 255 false 7) 0xE00 =
    some Regs.reset := by decide

-- Section 2.4, the reserved event code, and `NOTE.RSVD`, at their sub-block alone.
theorem test_ev_rsvd : regsOf (step ((block 3 (regs 2 false false true true 0 .left 0 true 2) []).present
    .ev2 0b11)) = some (regs 2 false false true true 0 .left 0 false 2) := by decide
theorem test_note_rsvd : regsOf (step ((block 3 (regs 2 false false true true 0 .left 0 true 2) []).present
    .note3 0b101)) = some (regs 2 false false true true 0 .left 0 false 2) := by decide

/-! ## Outputs (sections 2.5, 2.6) -/

theorem test_output_words :
    (outOf (regs 1 false false false false 0 .left 0 true 1)).word = 0x19#6 ∧
    (outOf (regs 1 false false false false 0 .left 0 false 1)).word = 0x11#6 ∧
    (outOf (regs 3 false false false false 0 .left 0 true 4)).word = 0x3C#6 ∧
    (outOf (regs 3 false false false false 0 .left 0 true 3)).word = 0x3B#6 := by decide

/-- The ports of the cycle, from a given outcome. -/
def outsOf : Host.Outcome State Fault Refusal → Option Outputs
  | .next t => some t.out
  | .fault _ => none
  | .refused _ => none

theorem test_ports_show_this_cycle :
    outsOf (step (block 3 (regs 2 false false true true 0 .left 0 true 4) [0x772])) =
      some { led1 := true, led2 := false, message := .status 2#2, noteValid := true, noteCode := 4 } := by
  decide

/-- R108's two line ends, as the source's section 6 prints them. -/
theorem test_line_of :
    lineOf Message.wireEnding 4 =
      some ([0x43, 0x4F, 0x4D, 0x4D, 0x41, 0x4E, 0x44, 0x20, 0x69, 0x73, 0x20, 0x49, 0x4E, 0x56, 0x41, 0x4C,
        0x49, 0x44] ++ [0x20, 0x0D, 0x0A]) ∧
    lineOf Message.wireEnding 6 = none := by decide

/-! ## The stimulus notation (R59, R60; the words of program P1) -/

theorem test_assemble_p1 :
    assemble 3 [.rst 1, .wait 1, .sendR, .nop, .sendR, .nop, .sendL, .nop] =
      [0xE00, 0x600, 0x772, 0x600, 0x772, 0x600, 0x76C, 0x600] := by decide
theorem test_assemble_click :
    assemble 0 [.click .left, .press .right 1] = [0x200, 0x200, 0x200, 0x600, 0x600, 0x400] := by decide

/-- The command bytes of a run, by hand from R85: THREE, then r, z, l, l, and a word with no byte. -/
theorem test_commands_alone :
    commandsAlone 2#2 [0x772, 0x77A, 0x76C, 0x76C, 0x66C] = 1#2 := by decide

/-! ## Witnesses: concrete states and operands that meet the hypotheses of each statement -/

/-- Idle, nothing pending, both buttons up. -/
def idle : Regs := regs 1 false false true true 0 .left 0 false 1
/-- Waiting in `FIRE` for the RIGHT button. -/
def firing : Regs := regs 1 false false true false 2 .right 0 false 1

theorem witness_InvalidByteIsReported :
    (0x6D#8 ≠ 0x6C#8 ∧ 0x6D#8 ≠ 0x72#8) ∧ (0x00#8 ≠ 0x6C#8 ∧ 0x00#8 ≠ 0x72#8) ∧
    (0xFF#8 ≠ 0x6C#8 ∧ 0xFF#8 ≠ 0x72#8) := by decide

theorem witness_GrantAppliesTheButtonsEvent :
    (block 3 firing []).regs.svc = .right ∧ (block 3 idle []).regs.svc = .left := by decide

theorem witness_SettleTickCountsDown :
    (block 3 (regs 1 false false true true 1 .left 1 false 1) []).regs.timer ≠ 0 ∧
    (block 3 idle []).regs.timer = 0 := by decide

theorem witness_EveryByteHasExactlyOneClass :
    (0x6B#8 : Byte) ≠ 0x6C#8 ∧ (0x6B#8 : Byte) ≠ 0x72#8 ∧ (0x73#8 : Byte) ≠ 0x72#8 := by decide

theorem witness_DecodeOfEncodeIsTheOperation :
    (Instr.cmdInv 0x71#8).wf = true ∧ (Instr.noteRsvd 7#3).wf = true ∧
    (Instr.reset true false true 0xFF#8).wf = true := by decide

theorem witness_EncodeOfDecodeIsThePattern :
    decode .seq7 0x7F = .ok (.seqRsvd true true true true true) := by rfl

theorem witness_OnlyWideNumbersAndPlainInputWordsAreRejected :
    2 ^ Carrier.cmd8.width ≤ 256 ∧ 2 ^ Carrier.in12.width ≤ 0x1000 ∧
    (Carrier.cmd8 ≠ .in12 ∧ 255 < 2 ^ Carrier.cmd8.width) ∧
    (Carrier.ev2 ≠ .in12 ∧ 3 < 2 ^ Carrier.ev2.width) ∧
    (Carrier.in12 = .in12 ∧ 0x7FF < 0x800) ∧ (Carrier.in12 = .in12 ∧ 0x800 ≤ 0x800 ∧ 0x800 < 0x1000) ∧
    (0x800 ≤ 0xFFF ∧ 0xFFF < 0x1000) := by decide

theorem witness_ExactlyOneSequencerPatternMatches : 0 < 128 ∧ 127 < 128 := by decide

theorem witness_StepRunsThePresentedOperation :
    ((block 3 firing []).present .seq7 0x40).presented = some ⟨.seq7, 0x40⟩ ∧
    decode .seq7 0x40 = .ok (.fireGrant false false false false) := ⟨rfl, rfl⟩

theorem witness_StepRunsTheDecodedOperations : (block 3 firing [0x200]).presented = none := rfl

theorem witness_PresentedPatternStopsOnlyIfUndecodable :
    ((block 3 idle []).present .note3 7).presented = some ⟨.note3, 7⟩ ∧
    (∃ i, decode .note3 7 = .ok i) ∧
    ((block 3 idle []).present .note3 8).presented = some ⟨.note3, 8⟩ ∧
    decode .note3 8 = .error (.tooWide .note3) := ⟨rfl, ⟨_, rfl⟩, rfl, rfl⟩

theorem witness_OrderInsideACycleIsIrrelevant :
    (block 3 firing [0x372]).presented = none ∧
    List.Perm (cyclePatterns firing 0x372).reverse (cyclePatterns firing 0x372) :=
  ⟨rfl, List.reverse_perm _⟩

theorem witness_StepNeverChangesTheParameters :
    ∃ t, step (block 3 firing [0x200]) = .next t := ⟨_, rfl⟩

theorem witness_StepIsNextOfTheSpec :
    (block 0 idle [0x000]).presented = none ∧ State.reset.presented = none := ⟨rfl, rfl⟩

theorem witness_StepKeepsTheInvariants :
    Inv (block 3 (regs 1 true false true true 1 .right 3 true 1) [0x372]) ∧
    ∃ t, step (block 3 (regs 1 true false true true 1 .right 3 true 1) [0x372]) = .next t :=
  ⟨⟨rfl, by decide, rfl, ⟨by decide, by decide, by decide, by decide, by decide⟩⟩, _, rfl⟩

theorem witness_StateMovesByOneOrNotAtAll :
    (block 3 idle [0x76C]).presented = none ∧ InWord.rst (block 3 idle [0x76C]).input = false ∧
    (InWord.rxValid (0x76C : InWord) = true ∧ InWord.rxData 0x76C = 0x6C#8) ∧
    (block 3 firing [0x200]).presented = none ∧ InWord.rst (block 3 firing [0x200]).input = false ∧
    (InWord.rxValid (0x200 : InWord) = false ∧ firing.phase = 0b10#2) := by decide

theorem witness_CommandIsAppliedInItsCycle :
    (block 3 firing [0x76C]).presented = none ∧ InWord.rst (block 3 firing [0x76C]).input = false ∧
    InWord.rxValid (block 3 firing [0x76C]).input = true ∧
    InWord.rxData (block 3 firing [0x76C]).input = 0x6C#8 ∧
    InWord.rst (block 3 idle [0x172]).input = false ∧ InWord.rxValid (block 3 idle [0x172]).input = true ∧
    InWord.rxData (block 3 idle [0x172]).input = 0x72#8 := by decide

theorem witness_InvalidByteChangesNoStateAndHoldsTheArbiter :
    (block 3 firing [0x578]).presented = none ∧ InWord.rst (block 3 firing [0x578]).input = false ∧
    InWord.rxValid (block 3 firing [0x578]).input = true ∧
    InWord.rxData (block 3 firing [0x578]).input ≠ 0x6C#8 ∧
    InWord.rxData (block 3 firing [0x578]).input ≠ 0x72#8 ∧ firing.phase = 0b10#2 := by decide

theorem witness_ReceiveDataIgnoredWithoutStrobe :
    (block 3 idle []).presented = none ∧ InWord.rst 0x66C = false ∧ InWord.rst 0x600 = false ∧
    InWord.btnL 0x66C = InWord.btnL 0x600 ∧ InWord.btnR 0x66C = InWord.btnR 0x600 ∧
    InWord.rxValid 0x66C = false ∧ InWord.rxValid 0x600 = false := by decide

theorem witness_ResetCycleRestoresEveryRegister :
    (block 3 firing [0x972]).presented = none ∧ (block 3 firing [0x972]).inputs = [0x972] ∧
    InWord.rst 0x972 = true ∧ InWord.rst 0x800 = true ∧ InWord.rst 0xFFF = true := by decide

theorem witness_FirstCycleAfterResetSeesNoEdge :
    (block 3 firing [0xE00, 0x000]).presented = none ∧
    (block 3 firing [0xE00, 0x000]).inputs = 0xE00 :: 0x000 :: [] ∧ InWord.rst 0xE00 = true ∧
    InWord.rst 0x000 = false := by decide

theorem witness_ButtonHeldThroughResetDoesNothing :
    (block 3 firing [0x800, 0x000, 0x000]).presented = none ∧
    (block 3 firing [0x800, 0x000, 0x000]).inputs = 0x800 :: [0x000, 0x000] ++ [] ∧
    InWord.rst 0x800 = true ∧
    ∀ w ∈ ([0x000, 0x000] : List InWord), InWord.rst w = false ∧ InWord.btnL w = false ∧
      InWord.btnR w = false ∧ InWord.rxValid w = false := by
  refine ⟨?_, ?_, ?_, ?_⟩ <;> first
    | rfl
    | simp [InWord.rst, InWord.btnL, InWord.btnR, InWord.rxValid]

theorem witness_FlagSetWinsOverClear :
    -- both flags set, both starts possible by turn, with a fall and without
    (block 3 (regs 0 true false true true 0 .left 0 false 0) [0x200]).presented = none ∧
    InWord.rst (0x200 : InWord) = false ∧ InWord.btnL (0x200 : InWord) = false ∧
    (block 3 (regs 0 false true true true 0 .left 0 false 0) [0x600]).presented = none ∧
    InWord.rst (0x600 : InWord) = false ∧ InWord.btnR (0x600 : InWord) = true := by decide

theorem witness_IdleServesLeftFirst :
    InWord.rst (block 3 idle [0x600]).input = false ∧ idle.phase = 0b00#2 ∧
    (idle.pendL = false ∧ idle.pendR = false) ∧
    (regs 0 true true false false 0 .left 0 false 0).pendL = true ∧
    ((regs 0 false true false false 0 .left 0 false 0).pendL = false ∧
      (regs 0 false true false false 0 .left 0 false 0).pendR = true) := by decide

theorem witness_SettleCountsThenResamples :
    (block 3 (regs 1 false false true true 1 .right 1 false 0) [0x400]).presented = none ∧
    InWord.rst (0x400 : InWord) = false ∧
    (regs 1 false false true true 1 .right 1 false 0).phase = 0b01#2 ∧
    InWord.rxValid (0x400 : InWord) = false ∧
    (regs 1 false false true true 1 .right 1 false 0).timer ≠ 0 ∧
    (regs 1 false false true true 1 .right 0 false 0).timer = 0 ∧
    InWord.btn 0x400 .right = false ∧ InWord.btn 0x400 .left = true := by decide

theorem witness_OneServiceAtATime :
    (block 3 firing [0x400]).presented = none ∧ InWord.rst (block 3 firing [0x400]).input = false ∧
    (firing.phase = 0b01#2 ∨ firing.phase = 0b10#2) ∧
    (regs 1 true true true true 1 .right 1 false 0).pend .left = true ∧
    (regs 1 true true true true 1 .right 1 false 0).phase = 0b01#2 := by decide

theorem witness_FireGrantsOrHolds :
    (block 3 firing [0x400]).presented = none ∧ InWord.rst (block 3 firing [0x400]).input = false ∧
    firing.phase = 0b10#2 ∧ InWord.rxValid (0x400 : InWord) = false ∧ firing.svc = .right ∧
    InWord.rxValid (0x500 : InWord) = true ∧
    (regs 1 false false true true 2 .left 0 false 0).svc = .left := by decide

theorem witness_ReservedPhaseRecovers :
    (block 3 (regs 1 true true true true 3 .right 255 false 7) [0x600]).presented = none ∧
    InWord.rst (0x600 : InWord) = false ∧ InWord.rxValid (0x600 : InWord) = false ∧
    (regs 1 true true true true 3 .right 255 false 7).phase = 0b11#2 ∧
    (regs 1 true true true true 3 .right 255 false 7).pend .right = true ∧
    -- and with a flag that is clear and falls in this cycle
    (block 3 (regs 1 false false true true 3 .left 0 false 0) [0x200]).presented = none ∧
    InWord.rst (0x200 : InWord) = false ∧ InWord.btn 0x200 .left = false := by decide

theorem witness_ArbiterPriorities :
    (InWord.rxValid 0x76C = true ∧ InWord.rxData 0x76C = 0x6C#8) ∧
    (InWord.rxValid 0x772 = true ∧ InWord.rxData 0x772 = 0x72#8) ∧
    (InWord.rxValid 0x7FF = true ∧ InWord.rxData 0x7FF ≠ 0x6C#8 ∧ InWord.rxData 0x7FF ≠ 0x72#8) ∧
    InWord.rxValid 0x600 = false ∧ (firing.phase = 0b10#2 ∧ firing.svc = .right) ∧
    ((regs 1 false false true true 2 .left 0 false 0).phase = 0b10#2 ∧
      (regs 1 false false true true 2 .left 0 false 0).svc = .left) ∧ idle.phase ≠ 0b10#2 := by decide

/-- The notification register of a cycle's result. -/
def noteOf (o : Host.Outcome State Fault Refusal) : Option (Bool × NoteCode) :=
  (regsOf o).map fun r => (r.noteValid, r.noteCode)

theorem witness_NotificationExactlyWhenOwed :
    (block 3 firing [0x400]).presented = none ∧ InWord.rst (block 3 firing [0x400]).input = false ∧
    noteOf (step (block 3 firing [0x400])) = some (true, 2) ∧
    noteOf (step (block 3 idle [0x7FF])) = some (true, 4) ∧
    noteOf (step (block 3 idle [0x600])) = some (false, 1) := by decide

theorem witness_StatusNotificationNamesTheLeds :
    (block 3 firing [0x400]).presented = none ∧
    ∃ t, step (block 3 firing [0x400]) = .next t ∧ t.regs.noteValid = true ∧ t.regs.noteCode.toNat ≤ 3 :=
  ⟨rfl, _, rfl, by decide, by decide⟩

theorem witness_PortsShowTheRegisters : (block 3 firing [0x800]).presented = none := rfl

theorem witness_FourEqualCommandsRestoreTheState :
    (block 3 firing [0x772, 0x772, 0x172, 0x772, 0x600]).presented = none ∧
    (block 3 firing [0x772, 0x772, 0x172, 0x772, 0x600]).inputs = [0x772, 0x772, 0x172, 0x772] ++ [0x600] ∧
    ([0x772, 0x772, 0x172, 0x772] : List InWord).length = 4 ∧
    (∀ w ∈ ([0x772, 0x772, 0x172, 0x772] : List InWord),
      InWord.rst w = false ∧ InWord.rxValid w = true ∧ InWord.rxData w = 0x72#8) ∧
    (∀ w ∈ ([0x76C, 0x16C, 0x76C, 0x76C] : List InWord),
      InWord.rst w = false ∧ InWord.rxValid w = true ∧ InWord.rxData w = 0x6C#8) := by
  refine ⟨?_, ?_, ?_, ?_, ?_⟩ <;> first
    | rfl
    | simp [InWord.rst, InWord.rxValid, InWord.rxData]

theorem witness_ServiceVerdictAfterTheSettleDelay :
    (block 0 (regs 1 false true true false 0 .left 0 false 0) [0x400, 0x400, 0x600]).presented = none ∧
    (regs 1 false true true false 0 .left 0 false 0).phase = 0b00#2 ∧
    (regs 1 false true true false 0 .left 0 false 0).pend .right = true ∧
    (Button.right = .right → (regs 1 false true true false 0 .left 0 false 0).pendL = false) ∧
    (block 0 (regs 1 false true true false 0 .left 0 false 0) [0x400, 0x400, 0x600]).inputs =
      [0x400] ++ 0x400 :: [0x600] ∧
    ([0x400] : List InWord).length = 0 + 1 ∧
    (∀ v ∈ ([0x400] ++ [0x400] : List InWord), InWord.rst v = false) ∧
    InWord.btn 0x400 .right = false := by
  refine ⟨?_, ?_, ?_, ?_, ?_, ?_, ?_, ?_⟩ <;> first
    | rfl
    | simp [InWord.rst, regs]

theorem witness_CleanPressIsConfirmed :
    (block 0 idle [0x200, 0x200, 0x200, 0x600]).presented = none ∧ Button.left ≠ .right ∧
    idle.phase = 0b00#2 ∧ idle.pendL = false ∧ idle.pendR = false ∧ idle.prev .left = true ∧
    (block 0 idle [0x200, 0x200, 0x200, 0x600]).inputs = [0x200, 0x200, 0x200] ++ 0x600 :: [] ∧
    ([0x200, 0x200, 0x200] : List InWord).length = 0 + 3 ∧
    (∀ v ∈ ([0x200, 0x200, 0x200] : List InWord), InWord.btn v .left = false) ∧
    (∀ v ∈ ([0x200, 0x200, 0x200] ++ [0x600] : List InWord), InWord.rst v = false ∧
      InWord.rxValid v = false ∧ InWord.btn v .right = idle.prev .right) := by
  refine ⟨?_, ?_, ?_, ?_, ?_, ?_, ?_, ?_, ?_, ?_⟩ <;> first
    | rfl
    | simp [InWord.rst, InWord.btnL, InWord.btnR, InWord.rxValid, InWord.btn, idle, regs, Regs.prev]

theorem witness_ShortPressIsDroppedInSilence :
    (block 0 idle [0x400, 0x400, 0x600]).presented = none ∧ Button.right ≠ .left ∧
    idle.phase = 0b00#2 ∧ idle.pendL = false ∧ idle.pendR = false ∧ idle.prev .right = true ∧
    (block 0 idle [0x400, 0x400, 0x600]).inputs = [0x400, 0x400] ++ [0x600] ++ [] ∧
    ([0x400, 0x400] : List InWord) ≠ [] ∧ ([0x600] : List InWord) ≠ [] ∧
    ([0x400, 0x400] : List InWord).length + ([0x600] : List InWord).length = 0 + 3 ∧
    (∀ v ∈ ([0x400, 0x400] : List InWord), InWord.btn v .right = false) ∧
    (∀ v ∈ ([0x600] : List InWord), InWord.btn v .right = true) ∧
    (∀ v ∈ ([0x400, 0x400] ++ [0x600] : List InWord), InWord.rst v = false ∧
      InWord.rxValid v = false ∧ InWord.btn v .left = idle.prev .left) := by
  refine ⟨?_, ?_, ?_, ?_, ?_, ?_, ?_, ?_, ?_, ?_, ?_, ?_, ?_⟩ <;> first
    | rfl
    | simp [InWord.rst, InWord.btnL, InWord.btnR, InWord.rxValid, InWord.btn, idle, regs, Regs.prev]

theorem witness_BothButtonsHeldCancel :
    (block 0 idle (List.replicate 7 0x000)).presented = none ∧ idle.phase = 0b00#2 ∧
    idle.pendL = false ∧ idle.pendR = false ∧ idle.prevL = true ∧ idle.prevR = true ∧
    (block 0 idle (List.replicate 7 0x000)).inputs = List.replicate 7 0x000 ++ [] ∧
    (List.replicate 7 (0x000 : InWord)).length = 2 * 0 + 7 ∧
    (∀ v ∈ List.replicate 7 (0x000 : InWord), InWord.rst v = false ∧ InWord.rxValid v = false ∧
      InWord.btnL v = false ∧ InWord.btnR v = false) := by
  refine ⟨?_, ?_, ?_, ?_, ?_, ?_, ?_, ?_, ?_⟩ <;> first
    | rfl
    | simp [InWord.rst, InWord.btnL, InWord.btnR, InWord.rxValid]

theorem witness_WaitingEventIsNeitherLostNorDoubled :
    (block 3 firing [0x772, 0x578, 0x600]).presented = none ∧ firing.phase = 0b10#2 ∧
    (block 3 firing [0x772, 0x578, 0x600]).inputs = [0x772, 0x578] ++ 0x600 :: [] ∧
    (∀ v ∈ ([0x772, 0x578] : List InWord), InWord.rst v = false ∧ InWord.rxValid v = true) ∧
    InWord.rst 0x600 = false ∧ InWord.rxValid 0x600 = false := by
  refine ⟨?_, ?_, ?_, ?_, ?_, ?_⟩ <;> first
    | rfl
    | simp [InWord.rst, InWord.rxValid]

theorem witness_NoEventWithoutAFallingEdge :
    (block 3 idle [0x600, 0x600]).presented = none ∧ idle.phase = 0b00#2 ∧ idle.pendL = false ∧
    idle.pendR = false ∧ (block 3 idle [0x600, 0x600]).inputs = [0x600, 0x600] ++ [] ∧
    ([0x600, 0x600] : List InWord) ≠ [] ∧ noFalls idle.prevL idle.prevR [0x600, 0x600] = true ∧
    noFalls false false [0x000, 0x400, 0x600] = true ∧ noFalls true true [0x200] = false ∧
    (∀ v ∈ ([0x600, 0x600] : List InWord), InWord.rst v = false ∧ InWord.rxValid v = false) := by
  refine ⟨?_, ?_, ?_, ?_, ?_, ?_, ?_, ?_, ?_, ?_⟩ <;> first
    | rfl
    | simp [InWord.rst, InWord.rxValid]

end Sys2Proof.Tests
end

