-- ==== Sys2Proof/Proofs/Scope.lean ====
section
/-! The statements of `00_scope.md`: what a step is (R4), what it leaves unchanged (R3), and what the ports show (R139). -/

namespace Sys2Proof.Machine

/-! ### Runs of patterns -/

/-- A run of nothing more is no run. -/
@[simp] theorem andThen_pure (o : Host.Outcome State Fault Refusal) : andThen o .next = o := by
  cases o <;> rfl

/-- A pattern alone is its decoded operation alone. -/
theorem runPatterns_singleton (p : Pattern) (i : Instr) (s : State) (h : decode p.carrier p.word = .ok i) :
    runPatterns [p] s = exec i s := by
  rw [runPatterns_cons p [] i s h]
  exact andThen_pure _

/-- `exec_frame`, carried along a list of patterns. -/
theorem runPatterns_frame (ps : List Pattern) (s t : State) (h : runPatterns ps s = .next t) :
    t.regs = s.regs ∧ t.cfg = s.cfg ∧ t.inputs = s.inputs ∧ t.cycle = s.cycle
      ∧ t.presented = s.presented := by
  induction ps generalizing s with
  | nil =>
    cases h
    exact ⟨rfl, rfl, rfl, rfl, rfl⟩
  | cons p ps ih =>
    cases hd : decode p.carrier p.word with
    | error e => simp [runPatterns, hd] at h
    | ok i =>
      rw [runPatterns_cons p ps i s hd] at h
      obtain ⟨u, hu, ht⟩ := andThen_eq_next _ _ _ h
      obtain ⟨hregs, hcfg, hinputs, hcycle, hpresented⟩ := exec_frame i s u hu
      simpa only [hregs, hcfg, hinputs, hcycle, hpresented] using ih u ht

/-! ### The step -/

/-- Inversion of the step, presented pattern or not: a next state is the clock edge after a run of the cycle's patterns. -/
theorem step_eq_next (s t : State) (h : step s = .next t) :
    ∃ u, runPatterns s.patterns s.openCycle = .next u ∧ t = u.closeCycle := by
  obtain ⟨u, hrun, hclose⟩ := andThen_eq_next _ _ _ h
  cases hclose
  exact ⟨u, hrun, rfl⟩

/-- Settles O27: the operations of a cycle leave these fields alone (`runPatterns_frame`), so they are as the clock edge
leaves them. -/
theorem stepNeverChangesTheParameters : Obligations.StepNeverChangesTheParameters := by
  intro s t h
  obtain ⟨u, hrun, rfl⟩ := step_eq_next s t h
  obtain ⟨-, hcfg, hinputs, hcycle, -⟩ := runPatterns_frame _ _ _ hrun
  simp [hcfg, hinputs, hcycle]

/-- Settles O23: a presented pattern is the only pattern of its cycle. -/
theorem stepRunsThePresentedOperation : Obligations.StepRunsThePresentedOperation := by
  intro s p i hp hd
  calc step s
      = andThen (runPatterns [p] s.openCycle) fun t => .next t.closeCycle := clockCycle_presented s p hp
    _ = andThen (exec i s.openCycle) fun t => .next t.closeCycle := by rw [runPatterns_singleton p i _ hd]

/-! ### The ports -/

/-- Among the operations of a cycle only PROJ drives the ports (R100), in a reset cycle (R170; log entry 9) as in any
other. -/
theorem runPatterns_cycle_out (s : State) :
    ∃ t, runPatterns (cyclePatterns s.regs s.input) s = .next t ∧
      t.out = (s.drive (led1Of s.regs.state) (led2Of s.regs.state) (.status s.regs.state)).out := by
  cases hrst : InWord.rst s.input with
  | true =>
    have hpatterns : cyclePatterns s.regs s.input =
        [⟨.st2, s.regs.state.toNat⟩] ++ [⟨.in12, s.input.toNat⟩] := by
      simp [cyclePatterns, hrst]
    rw [hpatterns, runPatterns_append, runs_proj, andThen_next, runs_reset _ _ hrst]
    exact ⟨_, rfl, rfl⟩
  | false =>
    have hseq := fun led1 led2 m => runs_seq (s.drive led1 led2 m) s.regs s.input rfl rfl
    rw [runs_cycle _ _ _ hrst, runs_proj, andThen_next, hseq, andThen_next, runs_edge_left, andThen_next,
      runs_edge_right, andThen_next, runs_cmd, andThen_next, runs_ev, andThen_next, runs_note]
    refine ⟨_, rfl, ?_⟩
    simp only [apply_ite State.out, applyEvent_out, notify_out, reportInvalid_out, ite_self]

/-- A cycle of the whole block completes, and keeps in `out` the spec's `out(R)` (R139; log entry 7). -/
theorem step_out_eq_outOf (s : State) (h : s.presented = none) :
    ∃ t, step s = .next t ∧ t.out = outOf s.regs := by
  obtain ⟨u, hrun, hout⟩ := runPatterns_cycle_out s.openCycle
  refine ⟨u.closeCycle, ?_, ?_⟩
  · calc step s
        = andThen (runPatterns (cyclePatterns s.regs s.input) s.openCycle) fun t => .next t.closeCycle :=
          clockCycle_whole s h
      _ = .next u.closeCycle := congrArg (andThen · fun t => .next t.closeCycle) hrun
  · rw [closeCycle_out, hout]
    rfl

/-- Settles O47: the fields of `outOf` (R101, R102, R139). -/
theorem portsShowTheRegisters : Obligations.PortsShowTheRegisters := by
  intro s h
  obtain ⟨t, hstep, hout⟩ := step_out_eq_outOf s h
  refine ⟨t, hstep, ?_⟩
  rw [hout]
  exact ⟨rfl, rfl, rfl, rfl⟩

end Sys2Proof.Machine
end

/-! The statements of `10_state.md`: the reset values (R23) and the invariants of the state (R24). A cycle of the whole
block is first shown to write the spec's `next` (R138), and the invariants are then proved of `next`. -/

namespace Sys2Proof.Machine

/-! ### The reset state (R23) -/

/-- Settles O49: the reset registers, the output word that goes with them, and the parameters of this hardware. -/
theorem resetValues : Obligations.ResetValues :=
  ⟨rfl, rfl, rfl⟩

/-- The reset registers meet items 1 to 4 of R24, whatever the parameters. -/
theorem regsInv_reset (p : Params) : RegsInv p Regs.reset where
  phase_legal := by decide
  timer_bounded := Nat.zero_le _
  timer_zero _ := rfl
  code_legal := by decide
  code_names_state h := nomatch h

/-- The parameters of this hardware are legal (R3). -/
theorem thisHardware_wf : Params.thisHardware.Wf := by decide

/-- Settles O29: between two cycles, on legal parameters, with registers that meet R24. -/
theorem resetStateMeetsTheInvariants : Obligations.ResetStateMeetsTheInvariants where
  whole_block := rfl
  params := thisHardware_wf
  settled := rfl
  regs := regsInv_reset _

/-! ### The codes and the phases (R47, R49) -/

/-- The four phases differ, each from each. -/
@[simp] theorem phases_distinct :
    (phIdle ≠ phSettle ∧ phIdle ≠ phFire ∧ phIdle ≠ phRsvd) ∧
      (phSettle ≠ phIdle ∧ phSettle ≠ phFire ∧ phSettle ≠ phRsvd) ∧
      (phFire ≠ phIdle ∧ phFire ≠ phSettle ∧ phFire ≠ phRsvd) ∧
      (phRsvd ≠ phIdle ∧ phRsvd ≠ phSettle ∧ phRsvd ≠ phFire) := by
  decide

/-- A cycle without an event announces none (R92). -/
@[simp] theorem announces_none : announces evCodeNone = false := rfl
/-- LEFT-PRESS is announced (R92). -/
@[simp] theorem announces_left : announces evCodeLeft = true := rfl
/-- RIGHT-PRESS is announced (R92). -/
@[simp] theorem announces_right : announces evCodeRight = true := rfl

/-! ### The event of a cycle (R119, R133, R135) -/

/-- The byte l (R119). -/
theorem cmdLeft_iff (w : InWord) :
    cmdLeft w = true ↔ InWord.rxValid w = true ∧ InWord.rxData w = 0x6C#8 := by
  simp [cmdLeft, Config.cmdLeftByte]

/-- The byte r (R119). -/
theorem cmdRight_iff (w : InWord) :
    cmdRight w = true ↔ InWord.rxValid w = true ∧ InWord.rxData w = 0x72#8 := by
  simp [cmdRight, Config.cmdRightByte]

/-- A waiting button event has the cycle exactly when no byte does (R133). -/
theorem btnGrant_iff (r : Regs) (w : InWord) :
    btnGrant r w = true ↔ InWord.rxValid w = false ∧ r.phase = phFire := by
  simp [btnGrant, and_comm]

/-- The two command bytes differ, so a byte is not both. -/
theorem cmdRight_of_cmdLeft (w : InWord) (h : cmdLeft w = true) : cmdRight w = false := by
  obtain ⟨-, hdata⟩ := (cmdLeft_iff w).mp h
  simp [cmdRight, hdata, Config.cmdRightByte]

/-- A command byte is not invalid. -/
theorem cmdInvalid_eq_false (w : InWord) (h : cmdLeft w = true ∨ cmdRight w = true) :
    cmdInvalid w = false := by
  simp only [cmdLeft, cmdRight, Bool.and_eq_true, beq_iff_eq] at h
  obtain ⟨-, hdata⟩ | ⟨-, hdata⟩ := h <;> simp [cmdInvalid, hdata]

/-- A byte of any class holds a waiting button event back (R134, R136). -/
theorem btnGrant_eq_false (r : Regs) (w : InWord) (h : InWord.rxValid w = true) :
    btnGrant r w = false := by
  simp [btnGrant, h]

/-- The five kinds of cycle: a byte of each class (R119), a granted button event (R133), or neither. -/
theorem event_cases (r : Regs) (w : InWord) :
    (cmdLeft w = true ∧ cmdRight w = false ∧ cmdInvalid w = false ∧ btnGrant r w = false ∧
      evOf r w = evCodeLeft) ∨
    (cmdLeft w = false ∧ cmdRight w = true ∧ cmdInvalid w = false ∧ btnGrant r w = false ∧
      evOf r w = evCodeRight) ∨
    (cmdLeft w = false ∧ cmdRight w = false ∧ cmdInvalid w = true ∧ btnGrant r w = false ∧
      evOf r w = evCodeNone) ∨
    (cmdLeft w = false ∧ cmdRight w = false ∧ cmdInvalid w = false ∧ btnGrant r w = true ∧
      evOf r w = Button.event r.svc) ∨
    (cmdLeft w = false ∧ cmdRight w = false ∧ cmdInvalid w = false ∧ btnGrant r w = false ∧
      evOf r w = evCodeNone) := by
  have hclass := cmd_classes w
  cases hl : cmdLeft w with
  | true =>
    have hv : InWord.rxValid w = true := by simp [hclass, hl]
    simp [cmdRight_of_cmdLeft w hl, cmdInvalid_eq_false w (.inl hl), btnGrant_eq_false r w hv, evOf, hl]
  | false =>
    cases hr : cmdRight w with
    | true =>
      have hv : InWord.rxValid w = true := by simp [hclass, hr]
      simp [cmdInvalid_eq_false w (.inr hr), btnGrant_eq_false r w hv, evOf, hl, hr]
    | false =>
      cases hi : cmdInvalid w with
      | true =>
        have hv : InWord.rxValid w = true := by simp [hclass, hi]
        simp [btnGrant_eq_false r w hv, evOf, hl, hr]
      | false => cases hg : btnGrant r w <;> simp [evOf, hl, hr, hg]

/-- The event of a cycle is LEFT or RIGHT, and so announced, exactly with a command byte or a grant (R135). -/
theorem announces_evOf_iff (r : Regs) (w : InWord) :
    announces (evOf r w) = true ↔ cmdLeft w = true ∨ cmdRight w = true ∨ btnGrant r w = true := by
  rcases event_cases r w with ⟨hl, hr, -, hg, he⟩ | ⟨hl, hr, -, hg, he⟩ | ⟨hl, hr, -, hg, he⟩ |
    ⟨hl, hr, -, hg, he⟩ | ⟨hl, hr, -, hg, he⟩ <;>
    simp [hl, hr, hg, he, announces_event]

/-! ### `next` register by register (R138) -/

/-- In `IDLE` the sequencer takes the LEFT flag first (R131, R69). -/
theorem seqNext_of_idle (p : Params) (r : Regs) (w : InWord) (h : r.phase = phIdle) :
    seqNext p r w =
      if r.pendL then (phSettle, .left, p.settleTicks)
      else if r.pendR then (phSettle, .right, p.settleTicks)
      else (phIdle, r.svc, r.timer) := by
  cases hl : r.pendL <;> simp [seqNext, start, h, hl]

/-- In `SETTLE` the timer runs down, and then the live pin decides (R71, R72, R73). -/
theorem seqNext_of_settle (p : Params) (r : Regs) (w : InWord) (h : r.phase = phSettle) :
    seqNext p r w =
      if r.timer = 0 then (if pinSvc r w then phIdle else phFire, r.svc, 0)
      else (phSettle, r.svc, r.timer - 1) := by
  by_cases ht : r.timer = 0 <;> cases hp : pinSvc r w <;> simp [seqNext, h, ht, hp]

/-- In `FIRE` the sequencer waits for a cycle without a byte (R133, R134). -/
theorem seqNext_of_fire (p : Params) (r : Regs) (w : InWord) (h : r.phase = phFire) :
    seqNext p r w = (if InWord.rxValid w then phFire else phIdle, r.svc, r.timer) := by
  cases hv : InWord.rxValid w <;> simp [seqNext, btnGrant, h, hv]

/-- The reserved phase goes to `IDLE` (R137). -/
theorem seqNext_of_rsvd (p : Params) (r : Regs) (w : InWord) (h : r.phase = phRsvd) :
    seqNext p r w = (phIdle, r.svc, r.timer) := by
  simp [seqNext, h]

/-- What the sequencer's operation writes into `phase`, `svc` and `timer` is the spec's `seqNext`. -/
theorem seqWrites_eq_seqNext (p : Params) (r u : Regs) (w : InWord)
    (hphase : u.phase = r.phase) (hsvc : u.svc = r.svc) (htimer : u.timer = r.timer) :
    ((seqWrites p r w u).phase, (seqWrites p r w u).svc, (seqWrites p r w u).timer) = seqNext p r w := by
  rcases phase_cases r.phase with h | h | h | h
  · rw [seqNext_of_idle p r w h]
    cases hl : r.pendL <;> cases hr : r.pendR <;> simp [seqWrites, start, h, hl, hr, hsvc, htimer]
  · rw [seqNext_of_settle p r w h]
    by_cases ht : r.timer = 0 <;> simp [seqWrites, start, h, ht, hphase, hsvc, htimer]
  · rw [seqNext_of_fire p r w h]
    simp [seqWrites, start, h, hsvc, htimer]
  · rw [seqNext_of_rsvd p r w h]
    simp [seqWrites, start, h, hsvc, htimer]

/-- Set wins over clear (R70), as the sequencer and the edge detector write it together. -/
theorem pendNext_eq (r : Regs) (w : InWord) (x : Button) :
    pendNext r w x = (fall r w x || if start r x then fall r w x else r.pend x) := by
  cases hf : fall r w x <;> simp [pendNext, hf]

/-- A notification is owed for an invalid byte and for an announced event (R105). -/
theorem noteNext_eq (r : Regs) (w : InWord) :
    noteNext r w =
      if cmdInvalid w then (true, noteInvCode)
      else if announces (evOf r w) then (true, statusCode (transition r.state (evOf r w)))
      else (false, r.noteCode) := by
  simp only [noteNext, announces_iff]

/-! ### A cycle writes `next` (R138) -/

/-- In a reset cycle the sub-blocks do nothing but show the outputs and reset (R170; log entry 9). -/
theorem cyclePatterns_of_rst (r : Regs) (w : InWord) (hrst : InWord.rst w = true) :
    cyclePatterns r w = [⟨.st2, r.state.toNat⟩] ++ [⟨.in12, w.toNat⟩] := by
  simp [cyclePatterns, hrst]

/-- Any other cycle shows the outputs, runs the gate, and reports the event. -/
theorem cyclePatterns_of_not_rst (r : Regs) (w : InWord) (hrst : InWord.rst w = false) :
    cyclePatterns r w = [⟨.st2, r.state.toNat⟩] ++
      ([⟨.seq7, seqVector r w⟩, ⟨.edge2 .left, edgeVector r w .left⟩, ⟨.edge2 .right, edgeVector r w .right⟩] ++
        (cmdPatterns w ++ [⟨.ev2, (evOf r w).toNat⟩] ++ notePatterns r w)) := by
  simp [cyclePatterns, hrst]

/-- The registers of a cycle without reset when the sequencer and the edge detectors have written theirs and the event of
the cycle is still to come: `next`, but for what a grant alone writes. -/
def gateRegs (p : Params) (r : Regs) (w : InWord) : Regs :=
  { nextRegs p r w with
    state := if btnGrant r w then transition r.state (Button.event r.svc) else r.state
    noteValid := btnGrant r w
    noteCode := if btnGrant r w then statusCode (transition r.state (Button.event r.svc)) else r.noteCode }

/-- The sequencer's operation with the two edge detectors' gives `gateRegs`. -/
theorem seqWrites_with_edges (p : Params) (r : Regs) (w : InWord) (hrst : InWord.rst w = false) :
    { seqWrites p r w { r with noteValid := false } with
      pendL := fall r w .left || (seqWrites p r w { r with noteValid := false }).pendL
      prevL := InWord.btnL w
      pendR := fall r w .right || (seqWrites p r w { r with noteValid := false }).pendR
      prevR := InWord.btnR w } = gateRegs p r w := by
  have hservice := seqWrites_eq_seqNext p r { r with noteValid := false } w rfl rfl rfl
  have hpend (x : Button) := pendNext_eq r w x
  simp [gateRegs, nextRegs, hrst, ← hservice, hpend, seqWrites, Regs.pend]

/-- The patterns of the sequencer and of the two edge detectors. -/
theorem runs_gate (s : State) (r : Regs) (w : InWord) (hr : r = s.regs) (hw : w = s.input)
    (hrst : InWord.rst w = false) (hupd : s.upd = { r with noteValid := false }) :
    runPatterns [⟨.seq7, seqVector r w⟩, ⟨.edge2 .left, edgeVector r w .left⟩,
      ⟨.edge2 .right, edgeVector r w .right⟩] s = .next { s with upd := gateRegs s.cfg r w } := by
  change runPatterns ([_] ++ ([_] ++ [_])) s = _
  rw [runPatterns_append, runs_seq s r w hr hw, andThen_next, runPatterns_append, runs_edge_left, andThen_next,
    runs_edge_right, hupd, ← seqWrites_with_edges s.cfg r w hrst]

/-- The patterns of the command decoder, of the event bus and of the notification port: they write the state and the
notification registers of `next`, whatever the sequencer has written there for a grant of the same cycle. -/
theorem runs_report (s : State) (r : Regs) (w : InWord) (hr : r = s.regs)
    (hvalid : s.upd.noteValid = btnGrant r w)
    (hcode : btnGrant r w = false → s.upd.noteCode = r.noteCode) :
    runPatterns (cmdPatterns w ++ [⟨.ev2, (evOf r w).toNat⟩] ++ notePatterns r w) s =
    .next { s with upd := { s.upd with
      state := transition r.state (evOf r w)
      noteValid := (noteNext r w).1
      noteCode := (noteNext r w).2 } } := by
  subst hr
  simp only [runPatterns_append, runs_cmd, andThen_next, runs_ev, runs_note, noteNext_eq]
  rcases event_cases s.regs w with ⟨hl, hr, hi, hg, he⟩ | ⟨hl, hr, hi, hg, he⟩ | ⟨hl, hr, hi, hg, he⟩ |
    ⟨hl, hr, hi, hg, he⟩ | ⟨hl, hr, hi, hg, he⟩ <;>
    simp [hl, hr, hi, hg, he, hvalid, hcode, applyEvent_eq, announces_event, State.notify, State.reportInvalid]

/-- The patterns of a cycle of the whole block, one after another, write the spec's `next` and `out` (R138, R139). -/
theorem runPatterns_cycle (s : State) :
    runPatterns (cyclePatterns s.regs s.input) s.openCycle =
      .next { s with upd := nextRegs s.cfg s.regs s.input, out := outOf s.regs } := by
  cases hrst : InWord.rst s.input with
  | true =>
    rw [cyclePatterns_of_rst _ _ hrst, runPatterns_append, runs_proj, andThen_next, runs_reset _ _ hrst]
    simp [nextRegs, hrst, State.resetRegs, State.drive, State.openCycle, outOf]
  | false =>
    rw [cyclePatterns_of_not_rst _ _ hrst, runPatterns_append, runs_proj, andThen_next, runPatterns_append,
      runs_gate (s.openCycle.drive _ _ _) s.regs s.input rfl rfl hrst rfl, andThen_next, runs_report]
    · simp [gateRegs, nextRegs, hrst, State.drive, State.openCycle, outOf]
    · rfl
    · rfl
    · intro hg
      simp [gateRegs, hg]

/-- A step of the whole block: `next` and `out` are written, and the clock edge follows. -/
theorem step_whole (s : State) (h : s.presented = none) :
    step s = .next { s with upd := nextRegs s.cfg s.regs s.input, out := outOf s.regs }.closeCycle := by
  change clockCycle s = _
  rw [clockCycle_whole s h, runPatterns_cycle, andThen_next]

/-! ### `next` keeps the invariants (R24) -/

/-- Item 1: the sequencer never enters the reserved phase. -/
theorem seqNext_phase_legal (p : Params) (r : Regs) (w : InWord) : (seqNext p r w).1 ≠ phRsvd := by
  rcases phase_cases r.phase with h | h | h | h
  · rw [seqNext_of_idle p r w h]
    split_ifs <;> simp
  · rw [seqNext_of_settle p r w h]
    split_ifs <;> simp
  · rw [seqNext_of_fire p r w h]
    split_ifs <;> simp
  · rw [seqNext_of_rsvd p r w h]
    simp

/-- Item 2, first half: the timer is loaded with `SETTLE_TICKS` and otherwise never rises. -/
theorem seqNext_timer_bounded (p : Params) (r : Regs) (w : InWord) (hbound : r.timer ≤ p.settleTicks) :
    (seqNext p r w).2.2 ≤ p.settleTicks := by
  rcases phase_cases r.phase with h | h | h | h
  · rw [seqNext_of_idle p r w h]
    split_ifs <;> simp [hbound]
  · rw [seqNext_of_settle p r w h]
    by_cases ht : r.timer = 0
    · simp [ht]
    · rw [if_neg ht]
      exact (Nat.sub_le _ _).trans hbound
  · rwa [seqNext_of_fire p r w h]
  · rwa [seqNext_of_rsvd p r w h]

/-- Item 2, second half: `SETTLE` is left only with the timer at 0, and outside it the timer does not move. -/
theorem seqNext_timer_zero (p : Params) (r : Regs) (w : InWord) (hlegal : r.phase ≠ phRsvd)
    (hzero : r.phase = phIdle ∨ r.phase = phFire → r.timer = 0)
    (hnext : (seqNext p r w).1 = phIdle ∨ (seqNext p r w).1 = phFire) : (seqNext p r w).2.2 = 0 := by
  rcases phase_cases r.phase with h | h | h | h
  · rw [seqNext_of_idle p r w h] at hnext ⊢
    split_ifs at hnext ⊢
    · simp at hnext
    · simp at hnext
    · exact hzero (.inl h)
  · rw [seqNext_of_settle p r w h] at hnext ⊢
    by_cases ht : r.timer = 0
    · rw [if_pos ht]
    · simp [ht] at hnext
  · rw [seqNext_of_fire p r w h]
    exact hzero (.inr h)
  · exact absurd h hlegal

/-- A status code is one of the four below `NOTE.INV` (R51). -/
theorem statusCode_le (d : DevState) : (statusCode d).toNat ≤ 3 := by
  revert d; decide

/-- Item 3: only the five codes of R51 are written. -/
theorem noteNext_code_legal (r : Regs) (w : InWord) (h : r.noteCode.toNat ≤ 4) :
    (noteNext r w).2.toNat ≤ 4 := by
  rw [noteNext_eq]
  split_ifs
  · decide
  · exact (statusCode_le _).trans (by decide)
  · exact h

/-- Item 4: a status notification names the state of the next cycle. -/
theorem noteNext_names_state (r : Regs) (w : InWord) (hvalid : (noteNext r w).1 = true)
    (hcode : (noteNext r w).2.toNat ≤ 3) : (noteNext r w).2 = statusCode (transition r.state (evOf r w)) := by
  rw [noteNext_eq] at hvalid hcode ⊢
  split_ifs at hvalid hcode ⊢
  · exact absurd hcode (by decide)
  · rfl

/-- `next` keeps the invariants of R24, a reset cycle included. -/
theorem regsInv_nextRegs (p : Params) (r : Regs) (w : InWord) (h : RegsInv p r) :
    RegsInv p (nextRegs p r w) := by
  obtain ⟨hphase, hbound, hzero, hcode, -⟩ := h
  unfold nextRegs
  split
  · exact regsInv_reset p
  · exact
      { phase_legal := seqNext_phase_legal p r w
        timer_bounded := seqNext_timer_bounded p r w hbound
        timer_zero := seqNext_timer_zero p r w hphase hzero
        code_legal := noteNext_code_legal r w hcode
        code_names_state := noteNext_names_state r w }

/-- Settles O30: a cycle of the whole block writes `next`, which keeps R24, and the clock edge leaves nothing presented
and nothing half written. -/
theorem stepKeepsTheInvariants : Obligations.StepKeepsTheInvariants := by
  rintro s t ⟨hwhole, hparams, -, hregs⟩ hstep
  rw [step_whole s hwhole] at hstep
  cases hstep
  exact
    { whole_block := rfl
      params := hparams
      settled := rfl
      regs := regsInv_nextRegs s.cfg s.regs s.input hregs }

/-! ### How the state moves (R24 item 5, R93) -/

/-- LEFT and RIGHT move the state by one, and no other code moves it (R85). -/
theorem transition_moves_by_one (d : DevState) (e : EvCode) :
    transition d e = d ∨ transition d e = d + 1 ∨ transition d e = d - 1 := by
  unfold transition
  split_ifs <;> simp

/-- The state moves exactly on an announced event: neither rotation has a fixed point (R91). -/
theorem transition_ne_iff : ∀ (d : DevState) (e : EvCode), transition d e ≠ d ↔ announces e = true := by
  decide

/-- Settles O31: the step moves the state by the event of its cycle, and that event is LEFT or RIGHT exactly with a command
byte or a grant. -/
theorem stateMovesByOneOrNotAtAll : Obligations.StateMovesByOneOrNotAtAll := by
  intro s hwhole hrst
  have hstate : (nextRegs s.cfg s.regs s.input).state = transition s.regs.state (evOf s.regs s.input) := by
    simp [nextRegs, hrst]
  refine ⟨_, step_whole s hwhole, ?_⟩
  simp only [closeCycle_regs, hstate]
  refine ⟨transition_moves_by_one _ _, ?_⟩
  rw [transition_ne_iff, announces_evOf_iff, cmdLeft_iff, cmdRight_iff, btnGrant_iff, and_or_left, or_assoc]

end Sys2Proof.Machine

/-! The statements of `20_memory.md`: all registers change at one clock edge (R34). Each pattern of a cycle decodes, and its
operation does nothing but latch: whatever it writes, it writes with the value that the register or port has at the end of
the cycle. Two operations that latch commute, so the order of a cycle's operations does not matter. -/

namespace Sys2Proof.Machine

/-! ### Latching the end of a cycle -/

/-- The whole block when the operations of its cycle have run and the clock edge is still to come (`step_whole`). -/
def State.cycleEnd (s : State) : State :=
  { s with upd := nextRegs s.cfg s.regs s.input, out := outOf s.regs }

/-- What the operations of a cycle write, in the units in which they write it: the two notification registers go together
(R105), and so do the LED ports with the message (R100). -/
inductive Slot where
  | state
  | pend (x : Button)
  | prev (x : Button)
  | phase
  | svc
  | timer
  | note
  | ports

/-- One slot of `z` takes the value it has in `e`. -/
def State.latch (e z : State) : Slot → State
  | .state => z.setState e.upd.state
  | .pend x => z.setPend x (e.upd.pend x)
  | .prev x => z.setPrev x (e.upd.prev x)
  | .phase => z.setPhase e.upd.phase
  | .svc => z.setSvc e.upd.svc
  | .timer => z.setTimer e.upd.timer
  | .note => { z with upd := { z.upd with noteValid := e.upd.noteValid, noteCode := e.upd.noteCode } }
  | .ports => z.drive e.out.led1 e.out.led2 e.out.message

/-- Two slots are latched in either order. -/
theorem latch_comm (e z : State) (a b : Slot) : e.latch (e.latch z a) b = e.latch (e.latch z b) a := by
  rcases a with _ | ⟨_ | _⟩ | ⟨_ | _⟩ | _ | _ | _ | _ | _ <;>
    rcases b with _ | ⟨_ | _⟩ | ⟨_ | _⟩ | _ | _ | _ | _ | _ <;> rfl

/-- `z` is a state inside the cycle that `s` begins: all that an operation reads is still as it is in `s`. -/
structure SameReads (s z : State) : Prop where
  regs : z.regs = s.regs
  cfg : z.cfg = s.cfg
  input : z.input = s.input

/-- Opening the cycle changes nothing that an operation reads. -/
theorem sameReads_openCycle (s : State) : SameReads s s.openCycle := ⟨rfl, rfl, rfl⟩

/-- Nothing that is latched is read in the same cycle (R6). -/
theorem SameReads.latch {s z : State} (h : SameReads s z) (e : State) (a : Slot) :
    SameReads s (e.latch z a) := by
  obtain ⟨hregs, hcfg, hinput⟩ := h
  cases a with
  | pend x => cases x <;> exact ⟨hregs, hcfg, hinput⟩
  | prev x => cases x <;> exact ⟨hregs, hcfg, hinput⟩
  | _ => exact ⟨hregs, hcfg, hinput⟩

/-- `SameReads.latch`, for several slots. -/
theorem SameReads.foldl_latch {s z : State} (h : SameReads s z) (e : State) (as : List Slot) :
    SameReads s (as.foldl e.latch z) := by
  induction as generalizing z with
  | nil => exact h
  | cons a as ih => exact ih (h.latch e a)

/-- Inside the cycle that `s` begins, `f` does nothing but latch the end of that cycle, in some slots. -/
def Latches (s : State) (f : State → Host.Outcome State Fault Refusal) : Prop :=
  ∃ as : List Slot, ∀ z, SameReads s z → f z = .next (as.foldl s.cycleEnd.latch z)

/-- Latching is about states inside the cycle only. -/
theorem Latches.congr {s : State} {f g : State → Host.Outcome State Fault Refusal} (hf : Latches s f)
    (h : ∀ z, SameReads s z → g z = f z) : Latches s g := by
  obtain ⟨as, hf⟩ := hf
  exact ⟨as, fun z hz => (h z hz).trans (hf z hz)⟩

/-- One after the other, two that latch do latch. -/
theorem Latches.andThen {s : State} {f g : State → Host.Outcome State Fault Refusal}
    (hf : Latches s f) (hg : Latches s g) : Latches s fun z => Machine.andThen (f z) g := by
  obtain ⟨as, hf⟩ := hf
  obtain ⟨bs, hg⟩ := hg
  refine ⟨as ++ bs, fun z hz => ?_⟩
  change Machine.andThen (f z) g = _
  rw [hf z hz, andThen_next, hg _ (hz.foldl_latch _ _), List.foldl_append]

/-- Two that latch the same cycle do so in either order: both write the values of the one end of the cycle (R34). -/
theorem Latches.comm {s z : State} {f g : State → Host.Outcome State Fault Refusal}
    (hf : Latches s f) (hg : Latches s g) (hz : SameReads s z) :
    Machine.andThen (f z) g = Machine.andThen (g z) f := by
  obtain ⟨as, hf⟩ := hf
  obtain ⟨bs, hg⟩ := hg
  rw [hf z hz, hg z hz, andThen_next, andThen_next, hg _ (hz.foldl_latch _ _), hf _ (hz.foldl_latch _ _),
    ← List.foldl_append, ← List.foldl_append]
  exact congrArg _ (List.perm_append_comm.foldl_eq' (fun a _ b _ z => latch_comm _ z a b) z)

/-! ### The order of patterns that latch -/

/-- Patterns that latch may be run in any order. -/
theorem runPatterns_perm (s : State) {ps qs : List Pattern} (hperm : ps.Perm qs)
    (hlatch : ∀ p ∈ ps, Latches s (runPatterns [p])) (z : State) (hz : SameReads s z) :
    runPatterns ps z = runPatterns qs z := by
  induction hperm generalizing z with
  | nil => rfl
  | @cons p ps qs _ ih =>
    obtain ⟨as, hp⟩ := hlatch p List.mem_cons_self
    change runPatterns ([p] ++ ps) z = runPatterns ([p] ++ qs) z
    rw [runPatterns_append, runPatterns_append, hp z hz, andThen_next, andThen_next]
    exact ih (fun q hq => hlatch q (List.mem_cons_of_mem p hq)) _ (hz.foldl_latch _ as)
  | swap p q ps =>
    change runPatterns ([q] ++ ([p] ++ ps)) z = runPatterns ([p] ++ ([q] ++ ps)) z
    simp only [← List.append_assoc, runPatterns_append]
    rw [(hlatch q (by simp)).comm (hlatch p (by simp)) hz]
  | trans hpq _ ih₁ ih₂ =>
    exact (ih₁ hlatch z hz).trans (ih₂ (fun q hq => hlatch q (hpq.mem_iff.mpr hq)) z hz)

/-! ### What the operations write -/

/-- The ports of a cycle show its registers (R139). -/
theorem latches_drive (s : State) :
    Latches s fun z => .next (z.drive (led1Of s.regs.state) (led2Of s.regs.state) (.status s.regs.state)) :=
  ⟨[.ports], fun _ _ => rfl⟩

/-- A reset cycle ends with every register at its reset value (R170). -/
theorem latches_resetRegs (s : State) (hrst : InWord.rst s.input = true) :
    Latches s fun z => .next z.resetRegs := by
  have hend : s.cycleEnd.upd = Regs.reset := by simp [State.cycleEnd, nextRegs, hrst]
  refine ⟨[.state, .pend .left, .pend .right, .prev .left, .prev .right, .phase, .svc, .timer, .note],
    fun z _ => ?_⟩
  simp [State.latch, hend, State.resetRegs, State.setState, State.setPend, State.setPrev, State.setPhase,
    State.setSvc, State.setTimer, Regs.pend, Regs.prev, Regs.reset]

/-- The registers at the end of a cycle without reset (R138). -/
theorem cycleEnd_upd (s : State) (hrst : InWord.rst s.input = false) :
    s.cycleEnd.upd =
      { state := transition s.regs.state (evOf s.regs s.input)
        pendL := pendNext s.regs s.input .left
        pendR := pendNext s.regs s.input .right
        prevL := InWord.btnL s.input
        prevR := InWord.btnR s.input
        phase := (seqNext s.cfg s.regs s.input).1
        svc := (seqNext s.cfg s.regs s.input).2.1
        timer := (seqNext s.cfg s.regs s.input).2.2
        noteValid := (noteNext s.regs s.input).1
        noteCode := (noteNext s.regs s.input).2 } := by
  simp [State.cycleEnd, nextRegs, hrst]

/-- The flag of a button at the end of the cycle (R70). -/
theorem cycleEnd_pend (s : State) (hrst : InWord.rst s.input = false) (x : Button) :
    s.cycleEnd.upd.pend x = pendNext s.regs s.input x := by
  rw [cycleEnd_upd s hrst]
  cases x <;> rfl

/-- The sample of a button at the end of the cycle (R68). -/
theorem cycleEnd_prev (s : State) (hrst : InWord.rst s.input = false) (x : Button) :
    s.cycleEnd.upd.prev x = InWord.btn s.input x := by
  rw [cycleEnd_upd s hrst]
  cases x <;> rfl

/-- The sequencer's next phase. -/
theorem latches_setPhase (s : State) (hrst : InWord.rst s.input = false) (v : Phase)
    (hv : (seqNext s.cfg s.regs s.input).1 = v) : Latches s fun z => .next (z.setPhase v) :=
  ⟨[.phase], fun z _ => by simp [State.latch, cycleEnd_upd s hrst, hv]⟩

/-- The sequencer's next timer. -/
theorem latches_setTimer (s : State) (hrst : InWord.rst s.input = false) (n : Nat)
    (hn : (seqNext s.cfg s.regs s.input).2.2 = n) : Latches s fun z => .next (z.setTimer n) :=
  ⟨[.timer], fun z _ => by simp [State.latch, cycleEnd_upd s hrst, hn]⟩

/-- The sequencer's next button. -/
theorem latches_setSvc (s : State) (hrst : InWord.rst s.input = false) (x : Button)
    (hx : (seqNext s.cfg s.regs s.input).2.1 = x) : Latches s fun z => .next (z.setSvc x) :=
  ⟨[.svc], fun z _ => by simp [State.latch, cycleEnd_upd s hrst, hx]⟩

/-- The flag of a button, whichever of its two writers writes it (R70). -/
theorem latches_setPend (s : State) (hrst : InWord.rst s.input = false) (x : Button) (v : Bool)
    (hv : pendNext s.regs s.input x = v) : Latches s fun z => .next (z.setPend x v) :=
  ⟨[.pend x], fun z _ => by simp [State.latch, cycleEnd_pend s hrst, hv]⟩

/-- The sample of a button. -/
theorem latches_setPrev (s : State) (hrst : InWord.rst s.input = false) (x : Button) :
    Latches s fun z => .next (z.setPrev x (InWord.btn s.input x)) :=
  ⟨[.prev x], fun z _ => by simp [State.latch, cycleEnd_prev s hrst]⟩

/-- The one notification of a cycle (R105). -/
theorem latches_notify (s : State) (hrst : InWord.rst s.input = false) (c : NoteCode)
    (hc : noteNext s.regs s.input = (true, c)) : Latches s fun z => .next (z.notify c) :=
  ⟨[.note], fun z _ => by simp [State.latch, State.notify, cycleEnd_upd s hrst, hc]⟩

/-- An invalid byte is the notification of its cycle (R106). -/
theorem noteNext_of_invalid (r : Regs) (w : InWord) (h : cmdInvalid w = true) :
    noteNext r w = (true, noteInvCode) := by
  simp [noteNext, h]

/-- An announced event is the notification of its cycle, which then has no invalid byte (R105, R119). -/
theorem noteNext_of_announces (r : Regs) (w : InWord) (h : announces (evOf r w) = true) :
    noteNext r w = (true, statusCode (transition r.state (evOf r w))) := by
  have hvalid : cmdInvalid w = false := by
    rcases (announces_evOf_iff r w).mp h with hl | hr | hg
    · exact cmdInvalid_eq_false w (.inl hl)
    · exact cmdInvalid_eq_false w (.inr hr)
    · simp [cmdInvalid, ((btnGrant_iff r w).mp hg).1]
  simp [noteNext_eq, hvalid, h]

/-- The event of a cycle, whichever sub-block presents it (R135): the state moves, and an announced event is notified. -/
theorem latches_applyEvent (s : State) (hrst : InWord.rst s.input = false) (e : EvCode)
    (he : evOf s.regs s.input = e) : Latches s fun z => .next (z.applyEvent e) := by
  subst he
  have hstate : Latches s fun z => .next (z.setState (transition z.regs.state (evOf s.regs s.input))) :=
    ⟨[.state], fun z hz => by simp [State.latch, cycleEnd_upd s hrst, hz.regs]⟩
  cases ha : announces (evOf s.regs s.input) with
  | false => exact hstate.congr fun z _ => by simp [State.applyEvent, ha]
  | true =>
    have hnote := latches_notify s hrst _ (noteNext_of_announces _ _ ha)
    exact (hstate.andThen hnote).congr fun z hz => by simp [State.applyEvent, ha, hz.regs]

/-- The start of a service (R69): the flag falls unless its pin does (R70), and the timer is loaded. -/
theorem latches_startService (s : State) (hrst : InWord.rst s.input = false) (x : Button)
    (hstart : start s.regs x = true)
    (hseq : seqNext s.cfg s.regs s.input = (phSettle, x, s.cfg.settleTicks)) :
    Latches s fun z => .next (z.startService x) := by
  have hpend := latches_setPend s hrst x (fall s.regs s.input x) (by simp [pendNext_eq, hstart])
  have hsvc := latches_setSvc s hrst x (by rw [hseq])
  have htimer := latches_setTimer s hrst s.cfg.settleTicks (by rw [hseq])
  have hphase := latches_setPhase s hrst phSettle (by rw [hseq])
  exact (((hpend.andThen hsvc).andThen htimer).andThen hphase).congr fun z hz => by
    simp [State.startService, State.takePend, hz.regs, hz.cfg, hz.input]

/-! ### The operations of a cycle -/

/-- A pattern that a sub-block sees in the cycle that `s` begins: it decodes to a well-formed operation, which latches. -/
def RunsAndLatches (s : State) (p : Pattern) : Prop :=
  ∃ i, decode p.carrier p.word = .ok i ∧ i.wf = true ∧ Latches s (exec i)

/-- A Device State is one of four (R46). -/
theorem state_cases : ∀ d : DevState, d = stOne ∨ d = stTwo ∨ d = stThree ∨ d = stFour := by
  decide

/-- PROJ (R100), in a reset cycle too (log entry 9). -/
theorem runsAndLatches_proj (s : State) : RunsAndLatches s ⟨.st2, s.regs.state.toNat⟩ := by
  have hdrive := latches_drive s
  rcases state_cases s.regs.state with h | h | h | h <;> rw [h] at hdrive ⊢ <;> exact ⟨_, rfl, rfl, hdrive⟩

/-- RESET (R170). -/
theorem runsAndLatches_reset (s : State) (hrst : InWord.rst s.input = true) :
    RunsAndLatches s ⟨.in12, s.input.toNat⟩ :=
  ⟨_, decode_in12 s.input hrst, rfl, latches_resetRegs s hrst⟩

/-- EDGE of either button: a fall sets the flag, and the sample is taken in any case (R65 to R68). -/
theorem runsAndLatches_edge (s : State) (hrst : InWord.rst s.input = false) (x : Button) :
    RunsAndLatches s ⟨.edge2 x, edgeVector s.regs s.input x⟩ := by
  refine ⟨_, decode_edge2 x _ _, ?_⟩
  have hprev := latches_setPrev s hrst x
  cases hp : s.regs.prev x <;> cases hb : InWord.btn s.input x <;> rw [hb] at hprev
  · exact ⟨rfl, hprev⟩
  · exact ⟨rfl, hprev⟩
  · have hfall : fall s.regs s.input x = true := by simp [fall, hp, hb]
    have hpend := latches_setPend s hrst x true (by simp [pendNext, hfall])
    exact ⟨rfl, hpend.andThen hprev⟩
  · exact ⟨rfl, hprev⟩

/-- EV: the event of the cycle (R85). -/
theorem runsAndLatches_ev (s : State) (hrst : InWord.rst s.input = false) :
    RunsAndLatches s ⟨.ev2, (evOf s.regs s.input).toNat⟩ := by
  have hevent := latches_applyEvent s hrst _ rfl
  rcases ev_cases (evOf s.regs s.input) with h | h | h | h <;> rw [h] at hevent ⊢ <;>
    exact ⟨_, rfl, rfl, hevent⟩

/-- CMD: the event of its byte (R116, R117), or the report of it (R118). -/
theorem runsAndLatches_cmd (s : State) (hrst : InWord.rst s.input = false)
    (hv : InWord.rxValid s.input = true) : RunsAndLatches s ⟨.cmd8, (InWord.rxData s.input).toNat⟩ := by
  refine ⟨_, decode_cmd8 _, ?_⟩
  by_cases hl : InWord.rxData s.input = Config.cmdLeftByte
  · rw [if_pos hl]
    exact ⟨rfl, latches_applyEvent s hrst evCodeLeft (by simp [evOf, cmdLeft, hv, hl])⟩
  rw [if_neg hl]
  by_cases hr : InWord.rxData s.input = Config.cmdRightByte
  · rw [if_pos hr]
    exact ⟨rfl, latches_applyEvent s hrst evCodeRight
      (by simp [evOf, cmdLeft, cmdRight, hv, hr, Config.cmdLeftByte, Config.cmdRightByte])⟩
  · rw [if_neg hr]
    have hevent := latches_applyEvent s hrst evCodeNone (by simp [evOf, cmdLeft, cmdRight, btnGrant, hv, hl, hr])
    have hreport := latches_notify s hrst noteInvCode
      (noteNext_of_invalid _ _ (by simp [cmdInvalid, hv, hl, hr]))
    exact ⟨by simp [Instr.wf, hl, hr], hevent.andThen hreport⟩

/-- NOTE: the report of an invalid byte, or the status of the new state (R105). -/
theorem runsAndLatches_note (s : State) (hrst : InWord.rst s.input = false) (p : Pattern)
    (hp : p ∈ notePatterns s.regs s.input) : RunsAndLatches s p := by
  unfold notePatterns at hp
  split_ifs at hp with hinvalid hannounced
  · obtain rfl := List.mem_singleton.mp hp
    exact ⟨_, rfl, rfl, latches_notify s hrst _ (noteNext_of_invalid _ _ hinvalid)⟩
  · obtain rfl := List.mem_singleton.mp hp
    have hnote := latches_notify s hrst _ (noteNext_of_announces _ _ hannounced)
    rcases state_cases (transition s.regs.state (evOf s.regs s.input)) with h | h | h | h <;>
      rw [h] at hnote ⊢ <;> exact ⟨_, rfl, rfl, hnote⟩
  · exact absurd hp List.not_mem_nil

/-- The sequencer in `IDLE` (R131, R69). -/
theorem runsAndLatches_seq_idle (s : State) (hrst : InWord.rst s.input = false) (h : s.regs.phase = phIdle) :
    RunsAndLatches s ⟨.seq7, seqVector s.regs s.input⟩ := by
  have hseq := seqNext_of_idle s.cfg s.regs s.input h
  unfold seqVector
  rw [h]
  refine ⟨_, decode_seq7_idle _ _ _ _ _, ?_⟩
  cases hl : s.regs.pendL with
  | true => exact ⟨rfl, latches_startService s hrst .left (by simp [start, h, hl]) (by simp [hseq, hl])⟩
  | false =>
    cases hr : s.regs.pendR with
    | true => exact ⟨rfl, latches_startService s hrst .right (by simp [start, h, hl, hr]) (by simp [hseq, hl, hr])⟩
    | false => exact ⟨rfl, latches_setPhase s hrst phIdle (by simp [hseq, hl, hr])⟩

/-- The sequencer in `SETTLE` (R71 to R73). -/
theorem runsAndLatches_seq_settle (s : State) (hrst : InWord.rst s.input = false)
    (h : s.regs.phase = phSettle) : RunsAndLatches s ⟨.seq7, seqVector s.regs s.input⟩ := by
  have hseq := seqNext_of_settle s.cfg s.regs s.input h
  unfold seqVector
  rw [h]
  refine ⟨_, decode_seq7_settle _ _ _ _ _, ?_⟩
  cases hz : timerZero s.regs with
  | false =>
    have htimer : s.regs.timer ≠ 0 := by simpa [timerZero] using hz
    have htick := latches_setTimer s hrst (s.regs.timer - 1) (by simp [hseq, htimer])
    exact ⟨rfl, htick.congr fun z hz => by rw [← hz.regs]; rfl⟩
  | true =>
    have htimer := (timerZero_iff _).mp hz
    cases hp : pinSvc s.regs s.input with
    | true => exact ⟨rfl, latches_setPhase s hrst phIdle (by simp [hseq, htimer, hp])⟩
    | false => exact ⟨rfl, latches_setPhase s hrst phFire (by simp [hseq, htimer, hp])⟩

/-- The sequencer in `FIRE` (R133, R134). -/
theorem runsAndLatches_seq_fire (s : State) (hrst : InWord.rst s.input = false) (h : s.regs.phase = phFire) :
    RunsAndLatches s ⟨.seq7, seqVector s.regs s.input⟩ := by
  have hseq := seqNext_of_fire s.cfg s.regs s.input h
  unfold seqVector
  rw [h]
  refine ⟨_, decode_seq7_fire _ _ _ _ _, ?_⟩
  cases hv : InWord.rxValid s.input with
  | true => exact ⟨rfl, latches_setPhase s hrst phFire (by simp [hseq, hv])⟩
  | false =>
    have hevent := latches_applyEvent s hrst (Button.event s.regs.svc)
      (by simp [evOf, cmdLeft, cmdRight, btnGrant, h, hv])
    have hphase := latches_setPhase s hrst phIdle (by simp [hseq, hv])
    exact ⟨rfl, (hevent.andThen hphase).congr fun z hz => by rw [← hz.regs]; rfl⟩

/-- The sequencer in the reserved phase (R137). -/
theorem runsAndLatches_seq_rsvd (s : State) (hrst : InWord.rst s.input = false) (h : s.regs.phase = phRsvd) :
    RunsAndLatches s ⟨.seq7, seqVector s.regs s.input⟩ := by
  have hseq := seqNext_of_rsvd s.cfg s.regs s.input h
  unfold seqVector
  rw [h]
  exact ⟨_, decode_seq7_rsvd _ _ _ _ _, rfl, latches_setPhase s hrst phIdle (by rw [hseq])⟩

/-- The sequencer, whatever its phase. -/
theorem runsAndLatches_seq (s : State) (hrst : InWord.rst s.input = false) :
    RunsAndLatches s ⟨.seq7, seqVector s.regs s.input⟩ := by
  rcases phase_cases s.regs.phase with h | h | h | h
  · exact runsAndLatches_seq_idle s hrst h
  · exact runsAndLatches_seq_settle s hrst h
  · exact runsAndLatches_seq_fire s hrst h
  · exact runsAndLatches_seq_rsvd s hrst h

/-- Every pattern of a cycle of the whole block. -/
theorem runsAndLatches_cycle (s : State) (p : Pattern) (hp : p ∈ cyclePatterns s.regs s.input) :
    RunsAndLatches s p := by
  cases hrst : InWord.rst s.input with
  | true =>
    simp only [cyclePatterns_of_rst _ _ hrst, List.mem_append, List.mem_singleton] at hp
    obtain rfl | rfl := hp
    · exact runsAndLatches_proj s
    · exact runsAndLatches_reset s hrst
  | false =>
    simp only [cyclePatterns_of_not_rst _ _ hrst, List.mem_append, List.mem_cons, List.not_mem_nil,
      or_false] at hp
    obtain rfl | (rfl | rfl | rfl) | (hcmd | rfl) | hnote := hp
    · exact runsAndLatches_proj s
    · exact runsAndLatches_seq s hrst
    · exact runsAndLatches_edge s hrst .left
    · exact runsAndLatches_edge s hrst .right
    · unfold cmdPatterns at hcmd
      split_ifs at hcmd with hv
      · obtain rfl := List.mem_singleton.mp hcmd
        exact runsAndLatches_cmd s hrst hv
      · exact absurd hcmd List.not_mem_nil
    · exact runsAndLatches_ev s hrst
    · exact runsAndLatches_note s hrst p hnote

/-! ### The obligations -/

/-- A list of patterns that each decode to a well-formed operation. -/
theorem exists_decoded_list (ps : List Pattern)
    (h : ∀ p ∈ ps, ∃ i, decode p.carrier p.word = .ok i ∧ i.wf = true) :
    ∃ is : List Instr, ps.map (fun p => decode p.carrier p.word) = is.map .ok ∧ ∀ i ∈ is, i.wf = true := by
  induction ps with
  | nil => exact ⟨[], rfl, by simp⟩
  | cons p ps ih =>
    obtain ⟨i, hdecode, hwf⟩ := h p List.mem_cons_self
    obtain ⟨is, hdecodes, hwfs⟩ := ih fun q hq => h q (List.mem_cons_of_mem p hq)
    exact ⟨i :: is, by simp [hdecode, hdecodes], by simpa [hwf] using hwfs⟩

/-- A run of patterns is a run of the operations they decode to. -/
theorem runPatterns_eq_foldl_exec (ps : List Pattern) (is : List Instr) (s : State)
    (h : ps.map (fun p => decode p.carrier p.word) = is.map .ok) :
    runPatterns ps s = is.foldl (fun o i => andThen o (exec i)) (.next s) := by
  induction ps generalizing is s with
  | nil =>
    obtain rfl : is = [] := by simpa using h.symm
    rfl
  | cons p ps ih =>
    cases is with
    | nil => simp at h
    | cons i is =>
      obtain ⟨hdecode, hrest⟩ := List.cons.inj h
      obtain ⟨t, ht⟩ := exec_completes i s
      rw [runPatterns_cons p ps i s hdecode, List.foldl_cons, andThen_next, ht, andThen_next]
      exact ih is t hrest

/-- Settles O24: every pattern of the cycle decodes (`runsAndLatches_cycle`), and running patterns is running what they
decode to. -/
theorem stepRunsTheDecodedOperations : Obligations.StepRunsTheDecodedOperations := by
  intro s hwhole
  obtain ⟨is, hdecode, hwf⟩ := exists_decoded_list (cyclePatterns s.regs s.input) fun p hp =>
    let ⟨i, hdecode, hwf, _⟩ := runsAndLatches_cycle s p hp
    ⟨i, hdecode, hwf⟩
  refine ⟨is, hdecode, hwf, ?_⟩
  rw [← runPatterns_eq_foldl_exec _ is _ hdecode]
  exact clockCycle_whole s hwhole

/-- Settles O26: every operation of the cycle latches (`runsAndLatches_cycle`), so a permutation of the patterns runs as they
do (`runPatterns_perm`). -/
theorem orderInsideACycleIsIrrelevant : Obligations.OrderInsideACycleIsIrrelevant := by
  intro s ps hwhole hperm
  have hlatch : ∀ p ∈ ps, Latches s (runPatterns [p]) := fun p hp =>
    let ⟨i, hdecode, _, hi⟩ := runsAndLatches_cycle s p (hperm.subset hp)
    hi.congr fun z _ => runPatterns_singleton p i z hdecode
  rw [runPatterns_perm s hperm hlatch _ (sameReads_openCycle s)]
  exact (clockCycle_whole s hwhole).symm

end Sys2Proof.Machine

/-! The statements of `30_encoding.md`: the input word and the output word (R52, R53), the sequencer's vector (R54), and that
decoder and encoder are inverse to each other (R45 to R58). The encoder's side is one predicate, `IsPatternOf`: the decoder
reads every such pattern back, and every number that fits its format is one, but for the input words with `rst` = 0. -/

namespace Sys2Proof.Machine

/-! ### Bit fields of a word -/

/-- A Boolean field as a summand. -/
theorem bitAt_eq (b : Bool) (i : Nat) : bitAt b i = b.toNat * 2 ^ i := by
  cases b <;> simp [bitAt]

/-- A bit of a number, read by division. -/
theorem testBit_eq_iff (n i : Nat) (b : Bool) : n.testBit i = b ↔ n / 2 ^ i % 2 = b.toNat := by
  rw [← Nat.toNat_testBit]
  cases b
  · exact Bool.toNat_eq_zero.symm
  · exact Bool.toNat_eq_one.symm

/-- A bit of a number, put back in its place. -/
theorem bitAt_testBit (n i : Nat) : bitAt (n.testBit i) i = n / 2 ^ i % 2 * 2 ^ i := by
  rw [bitAt_eq, Nat.toNat_testBit]

/-! ### The input word (R52) -/

/-- The fields of an input word do not overlap and fill its twelve bits. -/
theorem make_toNat (r l b v : Bool) (d : Byte) :
    (InWord.make r l b v d).toNat = bitAt r 11 + bitAt l 10 + bitAt b 9 + bitAt v 8 + d.toNat := by
  refine Nat.mod_eq_of_lt ?_
  have hr := r.toNat_le
  have hl := l.toNat_le
  have hb := b.toNat_le
  have hv := v.toNat_le
  have hd := d.isLt
  simp only [bitAt_eq]
  omega

/-- Each field of a word made of fields reads back. -/
theorem fields_make (r l b v : Bool) (d : Byte) :
    InWord.rst (InWord.make r l b v d) = r ∧ InWord.btnL (InWord.make r l b v d) = l ∧
    InWord.btnR (InWord.make r l b v d) = b ∧ InWord.rxValid (InWord.make r l b v d) = v ∧
    InWord.rxData (InWord.make r l b v d) = d := by
  have hr := r.toNat_le
  have hl := l.toNat_le
  have hb := b.toNat_le
  have hv := v.toNat_le
  have hd := d.isLt
  have hsum := make_toNat r l b v d
  simp only [bitAt_eq] at hsum
  refine ⟨(testBit_eq_iff _ 11 r).mpr ?_, (testBit_eq_iff _ 10 l).mpr ?_, (testBit_eq_iff _ 9 b).mpr ?_,
    (testBit_eq_iff _ 8 v).mpr ?_, BitVec.eq_of_toNat_eq ?_⟩
  case refine_5 =>
    rw [InWord.rxData, BitVec.toNat_setWidth]
    omega
  all_goals omega

/-- The word made of a word's own fields is that word. -/
theorem make_fields (w : InWord) :
    InWord.make (InWord.rst w) (InWord.btnL w) (InWord.btnR w) (InWord.rxValid w) (InWord.rxData w) = w := by
  have hw := w.isLt
  apply BitVec.eq_of_toNat_eq
  rw [make_toNat]
  simp only [InWord.rst, InWord.btnL, InWord.btnR, InWord.rxValid, InWord.rxData, BitVec.getLsbD, bitAt_testBit,
    BitVec.toNat_setWidth]
  omega

/-- `rst` is the topmost bit. -/
theorem rst_iff (w : InWord) : InWord.rst w = true ↔ 0x800 ≤ w.toNat := by
  have hw := w.isLt
  have hbit : InWord.rst w = true ↔ w.toNat / 2 ^ 11 % 2 = 1 := testBit_eq_iff w.toNat 11 true
  rw [hbit]
  omega

/-- Settles O21: the places of the fields are their definitions, and fields and word go both ways. -/
theorem inputWordFieldsRoundTrip : Obligations.InputWordFieldsRoundTrip :=
  ⟨fields_make, fun w => ⟨rfl, rfl, rfl, rfl, BitVec.setWidth_eq_extractLsb' (by decide), make_fields w⟩⟩

/-! ### The output word (R53) -/

/-- The fields of the output word do not overlap and fill its six bits. -/
theorem outputs_word_toNat (o : Outputs) :
    o.word.toNat = bitAt o.led1 5 + bitAt o.led2 4 + bitAt o.noteValid 3 + o.noteCode.toNat := by
  refine Nat.mod_eq_of_lt ?_
  have hled1 := o.led1.toNat_le
  have hled2 := o.led2.toNat_le
  have hvalid := o.noteValid.toNat_le
  have hcode := o.noteCode.isLt
  simp only [bitAt_eq]
  omega

/-- Each field of the output word, read back. -/
theorem outputs_word_fields (o : Outputs) :
    o.word.getLsbD 5 = o.led1 ∧ o.word.getLsbD 4 = o.led2 ∧ o.word.getLsbD 3 = o.noteValid ∧
    o.word.setWidth 3 = o.noteCode := by
  have hled1 := o.led1.toNat_le
  have hled2 := o.led2.toNat_le
  have hvalid := o.noteValid.toNat_le
  have hcode := o.noteCode.isLt
  have hsum := outputs_word_toNat o
  simp only [bitAt_eq] at hsum
  refine ⟨(testBit_eq_iff _ 5 _).mpr ?_, (testBit_eq_iff _ 4 _).mpr ?_, (testBit_eq_iff _ 3 _).mpr ?_,
    BitVec.eq_of_toNat_eq ?_⟩
  case refine_4 =>
    rw [BitVec.toNat_setWidth]
    omega
  all_goals omega

/-- Settles O22: the fields of the word of `outOf`, whose LEDs are the bits of the state (R101, R102). -/
theorem outputWordBits : Obligations.OutputWordBits := fun r => outputs_word_fields (outOf r)

/-! ### The sequencer's vector (R54) -/

/-- The sequencer's vector made of its fields. -/
def seqWord (ph : Phase) (pl pr tz pin rx : Bool) : Nat :=
  ph.toNat * 32 + bitAt pl 4 + bitAt pr 3 + bitAt tz 2 + bitAt pin 1 + bitAt rx 0

/-- The operation that R54 gives to a phase and the five conditions. -/
def seqOp (ph : Phase) (pl pr tz pin rx : Bool) : Instr :=
  if ph = phIdle then
    if pl then .svcStartL pr tz pin rx else if pr then .svcStartR tz pin rx else .seqIdle tz pin rx
  else if ph = phSettle then
    if tz then (if pin then .resampleDrop pl pr rx else .resampleConfirm pl pr rx)
    else .settleTick pl pr pin rx
  else if ph = phFire then if rx then .fireHold pl pr tz pin else .fireGrant pl pr tz pin
  else .seqRsvd pl pr tz pin rx

/-- What the sequencer sees in a cycle is the vector of the registers and the input word. -/
theorem seqVector_eq_seqWord (r : Regs) (w : InWord) :
    seqVector r w = seqWord r.phase r.pendL r.pendR (timerZero r) (pinSvc r w) (InWord.rxValid w) := rfl

/-- Each field of the vector, read back. -/
theorem seqWord_fields (ph : Phase) (pl pr tz pin rx : Bool) :
    seqWord ph pl pr tz pin rx / 32 = ph.toNat ∧ (seqWord ph pl pr tz pin rx).testBit 4 = pl ∧
    (seqWord ph pl pr tz pin rx).testBit 3 = pr ∧ (seqWord ph pl pr tz pin rx).testBit 2 = tz ∧
    (seqWord ph pl pr tz pin rx).testBit 1 = pin ∧ (seqWord ph pl pr tz pin rx).testBit 0 = rx := by
  have hpl := pl.toNat_le
  have hpr := pr.toNat_le
  have htz := tz.toNat_le
  have hpin := pin.toNat_le
  have hrx := rx.toNat_le
  simp only [testBit_eq_iff, seqWord, bitAt_eq]
  omega

/-- Every number of seven bits is the vector of its own fields. -/
theorem seqWord_of_lt (w : Nat) (h : w < 2 ^ 7) :
    seqWord (BitVec.ofNat 2 (w / 32)) (w.testBit 4) (w.testBit 3) (w.testBit 2) (w.testBit 1) (w.testBit 0) = w := by
  simp only [seqWord, bitAt_testBit, BitVec.toNat_ofNat]
  omega

/-- The decoder reads a vector as R54 does. -/
theorem decode_seqWord (ph : Phase) (pl pr tz pin rx : Bool) :
    decode .seq7 (seqWord ph pl pr tz pin rx) = .ok (seqOp ph pl pr tz pin rx) := by
  rcases phase_cases ph with rfl | rfl | rfl | rfl
  · exact decode_seq7_idle pl pr tz pin rx
  · exact decode_seq7_settle pl pr tz pin rx
  · exact decode_seq7_fire pl pr tz pin rx
  · exact decode_seq7_rsvd pl pr tz pin rx

/-- R54: the nine rows are disjoint and cover the 128 values. -/
theorem seqRows_hits_once : ∀ w < 128, (seqRows.filter fun r => r.hits w).length = 1 := by
  decide

/-- Settles O19: the rows by evaluation, the places of the fields by `seqWord_fields`. -/
theorem exactlyOneSequencerPatternMatches : Obligations.ExactlyOneSequencerPatternMatches := by
  refine ⟨rfl, rfl, seqRows_hits_once, fun r w => ?_⟩
  obtain ⟨hphase, hpendL, hpendR, htz, hpin, hrx⟩ :=
    seqWord_fields r.phase r.pendL r.pendR (timerZero r) (pinSvc r w) (InWord.rxValid w)
  rw [seqVector_eq_seqWord]
  refine ⟨hphase, hpendL, hpendR, htz, hpin.trans ?_, hrx⟩
  unfold pinSvc
  cases r.svc <;> rfl

/-! ### Patterns and their operations -/

/-- The encoder's side of the table: `w` at carrier `c` is the pattern of the well-formed operation `i`. -/
structure IsPatternOf (c : Carrier) (w : Nat) (i : Instr) : Prop where
  carrier : i.carrier = c
  word : encode i = w
  wf : i.wf = true

/-- A vector is the pattern of the operation that R54 gives to it. -/
theorem isPatternOf_seqWord (ph : Phase) (pl pr tz pin rx : Bool) :
    IsPatternOf .seq7 (seqWord ph pl pr tz pin rx) (seqOp ph pl pr tz pin rx) := by
  rcases phase_cases ph with rfl | rfl | rfl | rfl
  · cases pl
    · cases pr <;> exact ⟨rfl, by simp [seqOp, encode, seqWord, bitAt], rfl⟩
    · exact ⟨rfl, by simp [seqOp, encode, seqWord, bitAt], rfl⟩
  · cases tz
    · exact ⟨rfl, by simp [seqOp, encode, seqWord, bitAt], rfl⟩
    · cases pin <;> exact ⟨rfl, by simp [seqOp, encode, seqWord, bitAt]; omega, rfl⟩
  · cases rx
    · exact ⟨rfl, by simp [seqOp, encode, seqWord, bitAt], rfl⟩
    · exact ⟨rfl, by simp [seqOp, encode, seqWord, bitAt]; omega, rfl⟩
  · exact ⟨rfl, rfl, rfl⟩

/-- Encoding and decoding the operation of any vector. -/
theorem decode_encode_seqOp (ph : Phase) (pl pr tz pin rx : Bool) :
    decode .seq7 (encode (seqOp ph pl pr tz pin rx)) = .ok (seqOp ph pl pr tz pin rx) := by
  rw [(isPatternOf_seqWord ph pl pr tz pin rx).word, decode_seqWord]

/-- The pattern of RESET is an input word with `rst` = 1. -/
theorem encode_reset (l r v : Bool) (b : Byte) :
    encode (.reset l r v b) = (InWord.make true l r v b).toNat := by
  rw [make_toNat]
  rfl

/-- RESET, with the input bits it ignores (R52, R170). -/
theorem decode_encode_reset (l r v : Bool) (b : Byte) :
    decode .in12 (encode (.reset l r v b)) = .ok (.reset l r v b) := by
  obtain ⟨hrst, hbtnL, hbtnR, hrxValid, hrxData⟩ := fields_make true l r v b
  calc decode .in12 (encode (.reset l r v b))
      = decode .in12 (InWord.make true l r v b).toNat := by rw [encode_reset]
    _ = .ok (.reset (InWord.btnL (InWord.make true l r v b)) (InWord.btnR (InWord.make true l r v b))
          (InWord.rxValid (InWord.make true l r v b)) (InWord.rxData (InWord.make true l r v b))) := by
        rw [decode_in12 _ hrst, BitVec.ofNat_toNat]
        rfl
    _ = .ok (.reset l r v b) := by rw [hbtnL, hbtnR, hrxValid, hrxData]

/-- Settles O16: the default rows by their well-formedness (R48, R51), the sequencer's rows by their vector (R54), RESET by
its input word (R52). -/
theorem decodeOfEncodeIsTheOperation : Obligations.DecodeOfEncodeIsTheOperation := by
  intro i hwf
  cases i with
  | cmdInv b =>
    simp only [Instr.wf, Bool.and_eq_true, bne_iff_ne] at hwf
    obtain ⟨hl, hr⟩ := hwf
    change decode .cmd8 b.toNat = .ok (.cmdInv b)
    rw [decode_cmd8, if_neg hl, if_neg hr]
  | noteRsvd n =>
    revert n
    decide
  | seqIdle tz pin rx => exact decode_encode_seqOp phIdle false false tz pin rx
  | svcStartL pr tz pin rx => exact decode_encode_seqOp phIdle true pr tz pin rx
  | svcStartR tz pin rx => exact decode_encode_seqOp phIdle false true tz pin rx
  | settleTick pl pr pin rx => exact decode_encode_seqOp phSettle pl pr false pin rx
  | resampleConfirm pl pr rx => exact decode_encode_seqOp phSettle pl pr true false rx
  | resampleDrop pl pr rx => exact decode_encode_seqOp phSettle pl pr true true rx
  | fireGrant pl pr tz pin => exact decode_encode_seqOp phFire pl pr tz pin false
  | fireHold pl pr tz pin => exact decode_encode_seqOp phFire pl pr tz pin true
  | seqRsvd pl pr tz pin rx => exact decode_encode_seqOp phRsvd pl pr tz pin rx
  | edgeFall x => exact decode_edge2 x true false
  | edgeLow x => exact decode_edge2 x false false
  | edgeRise x => exact decode_edge2 x false true
  | edgeHigh x => exact decode_edge2 x true true
  | reset l r v b => exact decode_encode_reset l r v b
  | _ => rfl

/-- O16, for a pattern whose operation is known. -/
theorem IsPatternOf.decode_eq {c : Carrier} {w : Nat} {i : Instr} (h : IsPatternOf c w i) : decode c w = .ok i := by
  obtain ⟨rfl, rfl, hwf⟩ := h
  exact decodeOfEncodeIsTheOperation i hwf

/-- CMD8: the default row takes the bytes that the two commands leave (R48). -/
theorem exists_isPatternOf_cmd8 (b : Byte) : ∃ i, IsPatternOf .cmd8 b.toNat i := by
  by_cases hl : b = Config.cmdLeftByte
  · exact ⟨.cmdL, rfl, by rw [hl]; rfl, rfl⟩
  · by_cases hr : b = Config.cmdRightByte
    · exact ⟨.cmdR, rfl, by rw [hr]; rfl, rfl⟩
    · exact ⟨.cmdInv b, rfl, rfl, by simp [Instr.wf, hl, hr]⟩

/-- NOTE3: the default row takes the codes 5 to 7 (R51). -/
theorem exists_isPatternOf_note3 (n : NoteCode) : ∃ i, IsPatternOf .note3 n.toNat i := by
  by_cases h : 5 ≤ n.toNat
  · exact ⟨.noteRsvd n, rfl, rfl, decide_eq_true h⟩
  · generalize n.toNat = w at h
    interval_cases w
    · exact ⟨.noteS1, rfl, rfl, rfl⟩
    · exact ⟨.noteS2, rfl, rfl, rfl⟩
    · exact ⟨.noteS3, rfl, rfl, rfl⟩
    · exact ⟨.noteS4, rfl, rfl, rfl⟩
    · exact ⟨.noteInv, rfl, rfl, rfl⟩

/-- IN12 with `rst` = 1 (R52). -/
theorem isPatternOf_in12 (w : InWord) (h : InWord.rst w = true) : IsPatternOf .in12 w.toNat
    (.reset (InWord.btnL w) (InWord.btnR w) (InWord.rxValid w) (InWord.rxData w)) where
  carrier := rfl
  word := by rw [encode_reset, ← h, make_fields]
  wf := rfl

/-- Every number that fits its format is the pattern of an operation, but for an input word with `rst` = 0 (R57). -/
theorem exists_isPatternOf (c : Carrier) (w : Nat) (hfit : w < 2 ^ c.width) (hrst : c = .in12 → 0x800 ≤ w) :
    ∃ i, IsPatternOf c w i := by
  cases c with
  | cmd8 => exact exists_isPatternOf_cmd8 (BitVec.ofNatLT w hfit)
  | ev2 =>
    change w < 4 at hfit
    interval_cases w
    · exact ⟨.evNone, rfl, rfl, rfl⟩
    · exact ⟨.evLeft, rfl, rfl, rfl⟩
    · exact ⟨.evRight, rfl, rfl, rfl⟩
    · exact ⟨.evRsvd, rfl, rfl, rfl⟩
  | seq7 => exact ⟨_, seqWord_of_lt w hfit ▸ isPatternOf_seqWord _ _ _ _ _ _⟩
  | edge2 x =>
    change w < 4 at hfit
    interval_cases w
    · exact ⟨.edgeLow x, rfl, rfl, rfl⟩
    · exact ⟨.edgeRise x, rfl, rfl, rfl⟩
    · exact ⟨.edgeFall x, rfl, rfl, rfl⟩
    · exact ⟨.edgeHigh x, rfl, rfl, rfl⟩
  | st2 =>
    change w < 4 at hfit
    interval_cases w
    · exact ⟨.projOne, rfl, rfl, rfl⟩
    · exact ⟨.projTwo, rfl, rfl, rfl⟩
    · exact ⟨.projThree, rfl, rfl, rfl⟩
    · exact ⟨.projFour, rfl, rfl, rfl⟩
  | note3 => exact exists_isPatternOf_note3 (BitVec.ofNatLT w hfit)
  | in12 => exact ⟨_, isPatternOf_in12 (BitVec.ofNatLT w hfit) ((rst_iff _).mpr (hrst rfl))⟩

/-- A number that decodes fits its format, and is no input word with `rst` = 0. -/
theorem fits_of_decode (c : Carrier) (w : Nat) (i : Instr) (h : decode c w = .ok i) :
    w < 2 ^ c.width ∧ (c = .in12 → 0x800 ≤ w) := by
  constructor
  · by_contra hwide
    rw [decode_tooWide c w (Nat.le_of_not_lt hwide)] at h
    cases h
  · rintro rfl
    by_contra hplain
    rw [decode_in12_none w (Nat.lt_of_not_le hplain)] at h
    cases h

/-- Settles O17: what decodes is the pattern of some operation (`exists_isPatternOf`), and the decoder answers that
operation (O16). -/
theorem encodeOfDecodeIsThePattern : Obligations.EncodeOfDecodeIsThePattern := by
  intro c w i hdecode
  obtain ⟨hfit, hrst⟩ := fits_of_decode c w i hdecode
  obtain ⟨j, hj⟩ := exists_isPatternOf c w hfit hrst
  obtain rfl : j = i := Except.ok.inj (hj.decode_eq.symm.trans hdecode)
  exact ⟨hj.carrier, hj.word, hj.wf⟩

/-- Settles O18: what is rejected by `decode_tooWide` and `decode_in12_none`, the rest by `exists_isPatternOf`. -/
theorem onlyWideNumbersAndPlainInputWordsAreRejected :
    Obligations.OnlyWideNumbersAndPlainInputWordsAreRejected := by
  have hdecodes : ∀ c w, w < 2 ^ c.width → (c = .in12 → 0x800 ≤ w) → ∃ i, decode c w = .ok i :=
    fun c w hfit hrst => (exists_isPatternOf c w hfit hrst).imp fun _ hi => hi.decode_eq
  refine fun c w => ⟨decode_tooWide c w, fun hc hfit => hdecodes c w hfit fun h => absurd h hc, ?_, ?_⟩
  · rintro rfl hplain
    exact decode_in12_none w hplain
  · rintro rfl hrst hfit
    exact hdecodes .in12 w hfit fun _ => hrst

/-- Settles O15: each of these numbers is the pattern of its operation. -/
theorem patternsOfTheSpecDecode : Obligations.PatternsOfTheSpecDecode := by
  have roundTrip := decodeOfEncodeIsTheOperation
  exact ⟨roundTrip .cmdL rfl, roundTrip .cmdR rfl, roundTrip (.cmdInv 0x7A#8) rfl, roundTrip .evLeft rfl,
    roundTrip .evRight rfl, roundTrip (.svcStartL false false false false) rfl,
    roundTrip (.svcStartR false false false) rfl, roundTrip (.resampleDrop false false false) rfl,
    roundTrip (.fireHold false false false false) rfl, roundTrip (.edgeFall .left) rfl, roundTrip .projThree rfl,
    roundTrip .noteInv rfl, roundTrip (.noteRsvd 6#3) rfl, roundTrip (.reset true true false 0x00#8) rfl⟩

/-! ### A pattern presented alone (log entry 5) -/

/-- A presented pattern that decodes completes its step. -/
theorem step_presented_completes (s : State) (p : Pattern) (i : Instr) (hp : s.presented = some p)
    (hd : decode p.carrier p.word = .ok i) : ∃ t, step s = .next t := by
  obtain ⟨u, hu⟩ := exec_completes i s.openCycle
  rw [stepRunsThePresentedOperation s p i hp hd, hu]
  exact ⟨_, rfl⟩

/-- A presented pattern that does not decode is refused with the decoder's reason. -/
theorem step_presented_refused (s : State) (p : Pattern) (e : DecodeError) (hp : s.presented = some p)
    (hd : decode p.carrier p.word = .error e) : step s = .refused (.undecodable e) := by
  calc step s
      = andThen (runPatterns [p] s.openCycle) fun t => .next t.closeCycle := clockCycle_presented s p hp
    _ = .refused (.undecodable e) := by simp [runPatterns, hd, andThen]

/-- Settles O25: the two outcomes of a presented pattern exclude each other. -/
theorem presentedPatternStopsOnlyIfUndecodable : Obligations.PresentedPatternStopsOnlyIfUndecodable := by
  intro s p hp
  refine ⟨⟨?_, fun ⟨i, hd⟩ => step_presented_completes s p i hp hd⟩, fun e => step_presented_refused s p e hp⟩
  rintro ⟨t, ht⟩
  cases hd : decode p.carrier p.word with
  | ok i => exact ⟨i, rfl⟩
  | error e =>
    rw [step_presented_refused s p e hp hd] at ht
    cases ht

end Sys2Proof.Machine

/-! The statements of `40_debounce_gate.md`: the edge detectors and the pending flags (R65 to R70), the settle delay and
the re-sample (R71 to R73), and how long a service takes (R76, R78). A cycle is spoken of through `next` (`step_whole`), and
a run of several cycles through `next` applied to the listed words (`steps_listed`). -/

namespace Sys2Proof.Machine

/-! ### One operation at a time -/

/-- Settles O7: starting a service takes the flag, names the button, loads the timer and enters `SETTLE`. -/
theorem serviceStartLoadsTheTimer : Obligations.ServiceStartLoadsTheTimer :=
  fun s _ _ _ _ =>
    ⟨congrArg Host.Outcome.next (startService_left s), congrArg Host.Outcome.next (startService_right s)⟩

/-- Settles O8: what is written is the timer less one, in natural numbers. -/
theorem settleTickCountsDown : Obligations.SettleTickCountsDown :=
  fun s _ _ _ _ => ⟨s.regs.timer - 1, rfl, Nat.succ_pred, fun h => by rw [h]⟩

/-- Settles O9: each re-sample is one `setPhase`. -/
theorem resampleDecidesThePhase : Obligations.ResampleDecidesThePhase :=
  fun _ _ _ _ => ⟨rfl, rfl⟩

/-- Settles O10: the pattern is the encoding of `EDGE.FALL`, which is `raisePend` and then `setPrev`. -/
theorem fallingEdgeSetsOnlyItsFlag : Obligations.FallingEdgeSetsOnlyItsFlag :=
  ⟨fun x => decodeOfEncodeIsTheOperation (.edgeFall x) rfl, fun _ => ⟨rfl, rfl⟩⟩

/-- Settles O11: the patterns are the encodings of the three operations, each of which is one `setPrev`. -/
theorem otherEdgesSetNothing : Obligations.OtherEdgesSetNothing :=
  ⟨fun x => ⟨decodeOfEncodeIsTheOperation (.edgeLow x) rfl, decodeOfEncodeIsTheOperation (.edgeRise x) rfl,
    decodeOfEncodeIsTheOperation (.edgeHigh x) rfl⟩, fun _ => ⟨rfl, rfl, rfl, rfl, rfl, rfl⟩⟩

/-! ### The signals of the gate (R65, R131) -/

/-- A pin falls when its last sample was 1 and it reads 0 (R65). -/
theorem fall_iff (r : Regs) (w : InWord) (x : Button) :
    fall r w x = true ↔ r.prev x = true ∧ InWord.btn w x = false := by
  simp [fall]

/-- No edge is seen when the last sample was 0 or the pin reads 1 (R66). -/
theorem fall_eq_false_iff (r : Regs) (w : InWord) (x : Button) :
    fall r w x = false ↔ (r.prev x = true → InWord.btn w x = true) := by
  simp [fall]

/-- A LEFT service starts in `IDLE` when LEFT has a flag (R131). -/
theorem start_left_iff (r : Regs) : start r .left = true ↔ r.phase = phIdle ∧ r.pendL = true := by
  simp [start]

/-- A RIGHT service starts in `IDLE` when RIGHT has a flag and LEFT has none (R131). -/
theorem start_right_iff (r : Regs) :
    start r .right = true ↔ r.phase = phIdle ∧ r.pendL = false ∧ r.pendR = true := by
  simp [start, and_assoc]

/-! ### `next` of a cycle without reset, unit by unit (R138) -/

/-- The registers of the service sequencer (R14 to R16), in the order in which `seqNext` answers them. -/
def Regs.sequencer (r : Regs) : Phase × Button × Nat := (r.phase, r.svc, r.timer)

/-- The sequencer's registers, one by one. -/
theorem sequencer_eq_iff (r : Regs) (ph : Phase) (x : Button) (n : Nat) :
    r.sequencer = (ph, x, n) ↔ r.phase = ph ∧ r.svc = x ∧ r.timer = n := by
  simp [Regs.sequencer]

/-- The sequencer's registers after a cycle are those of `seqNext`. -/
theorem nextRegs_sequencer (p : Params) (r : Regs) (w : InWord) (hrst : InWord.rst w = false) :
    (nextRegs p r w).sequencer = seqNext p r w := by
  simp [nextRegs, hrst, Regs.sequencer]

/-- A flag after a cycle is `pendNext` (R70). -/
theorem nextRegs_pend (p : Params) (r : Regs) (w : InWord) (hrst : InWord.rst w = false) (x : Button) :
    (nextRegs p r w).pend x = pendNext r w x := by
  cases x <;> simp [nextRegs, hrst, Regs.pend]

/-- A sample is taken in every cycle (R68). -/
theorem nextRegs_prev (p : Params) (r : Regs) (w : InWord) (hrst : InWord.rst w = false) (x : Button) :
    (nextRegs p r w).prev x = InWord.btn w x := by
  cases x <;> simp [nextRegs, hrst, Regs.prev, InWord.btn]

/-- Without a byte and outside `FIRE` there is no event, so the state is kept and nothing is announced (R105, R135). -/
theorem nextRegs_of_no_event (p : Params) (r : Regs) (w : InWord) (hrst : InWord.rst w = false)
    (hrx : InWord.rxValid w = false) (hphase : r.phase ≠ phFire) :
    (nextRegs p r w).state = r.state ∧ (nextRegs p r w).noteValid = false := by
  have hgrant : btnGrant r w = false := by simp [btnGrant, hphase]
  have hinvalid : cmdInvalid w = false := by simp [cmdInvalid, hrx]
  have hevent : evOf r w = evCodeNone := by simp [evOf, cmdLeft, cmdRight, hrx, hgrant]
  constructor
  · simp [nextRegs, hrst, hevent, transition]
  · simp [nextRegs, hrst, noteNext, hinvalid, hevent]

/-- Settles O38: the flags after a cycle are `pendNext`, whose conditions are the falling edge and the start of the
service. -/
theorem flagSetWinsOverClear : Obligations.FlagSetWinsOverClear := by
  intro s hwhole hrst
  have hprev := nextRegs_prev s.cfg s.regs s.input hrst
  have hpend := nextRegs_pend s.cfg s.regs s.input hrst
  refine ⟨_, step_whole s hwhole, hprev .left, hprev .right, (hpend .left).trans ?_, (hpend .right).trans ?_⟩
  · exact if_congr (fall_iff _ _ .left) rfl (if_congr (start_left_iff _) rfl rfl)
  · exact if_congr (fall_iff _ _ .right) rfl (if_congr (start_right_iff _) rfl rfl)

/-! ### The cycles of a service (R69, R71 to R73) -/

/-- From `IDLE` the service of a flagged button starts, RIGHT's only without a LEFT flag (R69, R131). -/
theorem nextRegs_starts_service (p : Params) (r : Regs) (w : InWord) (x : Button) (hrst : InWord.rst w = false)
    (hidle : r.phase = phIdle) (hpend : r.pend x = true) (hleft : x = .right → r.pendL = false) :
    (nextRegs p r w).sequencer = (phSettle, x, p.settleTicks) := by
  rw [nextRegs_sequencer p r w hrst, seqNext_of_idle p r w hidle]
  cases x with
  | left => exact if_pos hpend
  | right =>
    rw [hleft rfl]
    exact if_pos hpend

/-- In `SETTLE` a timer that is not 0 falls by one (R71). -/
theorem nextRegs_counts_down (p : Params) (r : Regs) (w : InWord) (x : Button) (n : Nat) (hrst : InWord.rst w = false)
    (h : r.sequencer = (phSettle, x, n + 1)) : (nextRegs p r w).sequencer = (phSettle, x, n) := by
  obtain ⟨hphase, rfl, htimer⟩ := (sequencer_eq_iff _ _ _ _).mp h
  rw [nextRegs_sequencer p r w hrst, seqNext_of_settle p r w hphase]
  simp [htimer]

/-- In `SETTLE` with the timer at 0 the live pin of the serviced button decides (R72, R73). -/
theorem nextRegs_resamples (p : Params) (r : Regs) (w : InWord) (x : Button) (hrst : InWord.rst w = false)
    (h : r.sequencer = (phSettle, x, 0)) :
    (nextRegs p r w).sequencer = (if InWord.btn w x = true then phIdle else phFire, x, 0) := by
  obtain ⟨hphase, rfl, htimer⟩ := (sequencer_eq_iff _ _ _ _).mp h
  rw [nextRegs_sequencer p r w hrst, seqNext_of_settle p r w hphase]
  exact if_pos htimer

/-- Settles O40: the timer is 0, and the cycle re-samples, or it is not, and the cycle counts down. -/
theorem settleCountsThenResamples : Obligations.SettleCountsThenResamples := by
  intro s hwhole hrst hphase
  refine ⟨_, step_whole s hwhole, ?_⟩
  have hquiet (hrx : InWord.rxValid s.input = false) := nextRegs_of_no_event s.cfg s.regs s.input hrst hrx
    (by simp [hphase])
  have hnow (n : Nat) (htimer : s.regs.timer = n) : s.regs.sequencer = (phSettle, s.regs.svc, n) :=
    (sequencer_eq_iff _ _ _ _).mpr ⟨hphase, rfl, htimer⟩
  simp only [closeCycle_regs]
  cases htimer : s.regs.timer with
  | zero =>
    have hnext := nextRegs_resamples s.cfg s.regs s.input _ hrst (hnow 0 htimer)
    obtain ⟨hphase', hsvc', htimer'⟩ := (sequencer_eq_iff _ _ _ _).mp hnext
    refine ⟨hsvc', hquiet, (absurd rfl ·), fun _ => ⟨htimer', fun hlow => ?_, fun hhigh => ?_⟩⟩
    · simp [hphase', hlow]
    · simp [hphase', hhigh]
  | succ n =>
    have hnext := nextRegs_counts_down s.cfg s.regs s.input _ n hrst (hnow (n + 1) htimer)
    obtain ⟨hphase', hsvc', htimer'⟩ := (sequencer_eq_iff _ _ _ _).mp hnext
    exact ⟨hsvc', hquiet, fun _ => ⟨hphase', by rw [htimer']⟩, fun h => absurd h n.succ_ne_zero⟩

/-! ### Runs over listed words (R139) -/

/-- The first word of a run is used first (R139). -/
@[simp] theorem runRegs_cons (p : Params) (w : InWord) (ws : List InWord) (r : Regs) :
    runRegs p (w :: ws) r = runRegs p ws (nextRegs p r w) := rfl

/-- A run may be cut anywhere. -/
theorem runRegs_append (p : Params) (ws vs : List InWord) (r : Regs) :
    runRegs p (ws ++ vs) r = runRegs p vs (runRegs p ws r) := by
  induction ws generalizing r with
  | nil => rfl
  | cons w ws ih => exact ih (nextRegs p r w)

/-- As many steps as words are listed complete, use these words up, and take the registers through `next` of each. -/
theorem steps_listed (ws rest : List InWord) (s : State) (hwhole : s.presented = none)
    (hinputs : s.inputs = ws ++ rest) :
    ∃ t, steps ws.length s = .next t ∧ t.regs = runRegs s.cfg ws s.regs ∧ t.cfg = s.cfg ∧ t.inputs = rest ∧
      t.presented = none := by
  induction ws generalizing s with
  | nil => exact ⟨s, rfl, rfl, rfl, hinputs, hwhole⟩
  | cons w ws ih =>
    have hinput : s.input = w := input_of_cons s w (ws ++ rest) hinputs
    have hstep := step_whole s hwhole
    rw [hinput] at hstep
    rw [List.length_cons, steps_succ, hstep, andThen_next]
    exact ih _ rfl (by simp [hinputs])

/-! ### How long a service takes (R76, R78) -/

/-- In `SETTLE` as many cycles as there are words take as many off the timer, whatever else the words carry (R71). -/
theorem runRegs_counts_down (p : Params) (ws : List InWord) (r : Regs) (x : Button) (n : Nat)
    (hrst : ∀ v ∈ ws, InWord.rst v = false) (h : r.sequencer = (phSettle, x, n + ws.length)) :
    (runRegs p ws r).sequencer = (phSettle, x, n) := by
  induction ws generalizing r with
  | nil => exact h
  | cons w ws ih =>
    obtain ⟨hw, hws⟩ := List.forall_mem_cons.mp hrst
    exact ih _ hws (nextRegs_counts_down p r w x (n + ws.length) hw h)

/-- A whole service: one cycle starts it, `SETTLE_TICKS` cycles count the timer down, and one re-samples. -/
theorem runRegs_service (p : Params) (v w : InWord) (vs : List InWord) (r : Regs) (x : Button)
    (hidle : r.phase = phIdle) (hpend : r.pend x = true) (hleft : x = .right → r.pendL = false)
    (hlength : vs.length = p.settleTicks) (hrst : ∀ u ∈ v :: vs ++ [w], InWord.rst u = false) :
    (runRegs p (v :: vs ++ [w]) r).sequencer = (if InWord.btn w x = true then phIdle else phFire, x, 0) := by
  have hstart : (nextRegs p r v).sequencer = (phSettle, x, 0 + vs.length) := by
    rw [hlength, Nat.zero_add]
    exact nextRegs_starts_service p r v x (hrst v (by simp)) hidle hpend hleft
  have hsettled := runRegs_counts_down p vs _ x 0 (fun u hu => hrst u (by simp [hu])) hstart
  rw [List.cons_append, runRegs_cons, runRegs_append]
  exact nextRegs_resamples p _ w x (hrst w (by simp)) hsettled

/-- Settles O53: the listed words are those of a whole service. -/
theorem serviceVerdictAfterTheSettleDelay : Obligations.ServiceVerdictAfterTheSettleDelay := by
  intro s x ws w rest hwhole hidle hpend hleft hinputs hlength hrst
  obtain ⟨v, vs, rfl⟩ := List.exists_cons_of_length_eq_add_one hlength
  obtain ⟨t, hsteps, hregs, -⟩ := steps_listed (v :: vs ++ [w]) rest s hwhole (by simpa using hinputs)
  have hservice := runRegs_service s.cfg v w vs s.regs x hidle hpend hleft (by simpa using hlength) hrst
  rw [← hregs] at hservice
  obtain ⟨hphase, hsvc, htimer⟩ := (sequencer_eq_iff _ _ _ _).mp hservice
  have hcount : (v :: vs ++ [w]).length = s.cfg.settleTicks + 2 := by simpa using hlength
  exact ⟨t, hcount ▸ hsteps, hsvc, htimer, hphase⟩

/-! ### An idle block (R65, R66, R181) -/

/-- Idle in Device State `d`, with no flag and nothing announced. -/
structure Quiet (d : DevState) (r : Regs) : Prop where
  state : r.state = d
  phase : r.phase = phIdle
  pend : ∀ x, r.pend x = false
  note : r.noteValid = false

/-- No falling edge over a run: none in its first cycle, and none over the rest of it. -/
theorem noFalls_cons_iff_fall (p : Params) (r : Regs) (w : InWord) (ws : List InWord) (hrst : InWord.rst w = false) :
    noFalls r.prevL r.prevR (w :: ws) = true ↔
      (∀ x, fall r w x = false) ∧ noFalls (nextRegs p r w).prevL (nextRegs p r w).prevR ws = true := by
  have hprevL : (nextRegs p r w).prevL = InWord.btnL w := nextRegs_prev p r w hrst .left
  have hprevR : (nextRegs p r w).prevR = InWord.btnR w := nextRegs_prev p r w hrst .right
  have hbuttons : (∀ x, fall r w x = false) ↔
      (r.prevL = true → InWord.btnL w = true) ∧ (r.prevR = true → InWord.btnR w = true) := by
    constructor
    · intro h
      exact ⟨(fall_eq_false_iff r w .left).mp (h .left), (fall_eq_false_iff r w .right).mp (h .right)⟩
    · rintro ⟨hl, hr⟩ (_ | _)
      · exact (fall_eq_false_iff r w .left).mpr hl
      · exact (fall_eq_false_iff r w .right).mpr hr
  rw [noFalls_cons, hbuttons, hprevL, hprevR, and_assoc]

/-- A cycle without a byte and without a falling edge leaves an idle block with no flags idle with no flags, and announces
nothing. -/
theorem quiet_nextRegs (p : Params) (r : Regs) (w : InWord) (hrst : InWord.rst w = false)
    (hrx : InWord.rxValid w = false) (hidle : r.phase = phIdle) (hpend : ∀ x, r.pend x = false)
    (hfall : ∀ x, fall r w x = false) : Quiet r.state (nextRegs p r w) := by
  obtain ⟨hstate, hnote⟩ := nextRegs_of_no_event p r w hrst hrx (by simp [hidle])
  have hseq : (nextRegs p r w).sequencer = (phIdle, r.svc, r.timer) := by
    have hl : r.pendL = false := hpend .left
    have hr : r.pendR = false := hpend .right
    rw [nextRegs_sequencer p r w hrst, seqNext_of_idle p r w hidle]
    simp [hl, hr]
  obtain ⟨hphase, -⟩ := (sequencer_eq_iff _ _ _ _).mp hseq
  refine ⟨hstate, hphase, fun x => ?_, hnote⟩
  rw [nextRegs_pend p r w hrst]
  simp [pendNext, hfall, hpend]

/-- A quiet block stays quiet over any words without reset, byte or falling edge. -/
theorem quiet_runRegs (p : Params) (d : DevState) (ws : List InWord) (r : Regs) (hquiet : Quiet d r)
    (hfalls : noFalls r.prevL r.prevR ws = true)
    (hws : ∀ v ∈ ws, InWord.rst v = false ∧ InWord.rxValid v = false) : Quiet d (runRegs p ws r) := by
  induction ws generalizing r with
  | nil => exact hquiet
  | cons w ws ih =>
    obtain ⟨⟨hrst, hrx⟩, hws⟩ := List.forall_mem_cons.mp hws
    obtain ⟨hfall, hfalls⟩ := (noFalls_cons_iff_fall p r w ws hrst).mp hfalls
    have hnext := quiet_nextRegs p r w hrst hrx hquiet.phase hquiet.pend hfall
    rw [hquiet.state] at hnext
    exact ih _ hnext hfalls hws

/-- Settles O58: the first cycle makes the block quiet, and the others keep it so. -/
theorem noEventWithoutAFallingEdge : Obligations.NoEventWithoutAFallingEdge := by
  intro s ws rest hwhole hidle hpendL hpendR hinputs hne hfalls hws
  obtain ⟨t, hsteps, hregs, -⟩ := steps_listed ws rest s hwhole hinputs
  obtain ⟨w, ws, rfl⟩ := List.exists_cons_of_ne_nil hne
  obtain ⟨⟨hrst, hrx⟩, hws⟩ := List.forall_mem_cons.mp hws
  obtain ⟨hfall, hfalls⟩ := (noFalls_cons_iff_fall s.cfg s.regs w ws hrst).mp hfalls
  have hpend : ∀ x, s.regs.pend x = false
    | .left => hpendL
    | .right => hpendR
  have hfirst := quiet_nextRegs s.cfg s.regs w hrst hrx hidle hpend hfall
  have hlast := quiet_runRegs s.cfg s.regs.state ws _ hfirst hfalls hws
  rw [← runRegs_cons, ← hregs] at hlast
  exact ⟨t, hsteps, hlast.state, hlast.phase, hlast.pend .left, hlast.pend .right, hlast.note⟩

end Sys2Proof.Machine

/-! The statements of `41_fsm_core.md`: the transition function (R85, R91), the operations `EV.*` (R86 to R89), and the
commands of several cycles at the receive port (R92). What an event does is said once for each code; a run of command bytes
is then that event, applied as many times as there are words. -/

namespace Sys2Proof.Machine

/-! ### The transition function (R85, R91) -/

/-- LEFT goes back one (R86). -/
@[simp] theorem transition_left (d : DevState) : transition d evCodeLeft = d - 1 := rfl

/-- RIGHT goes on one (R87). -/
@[simp] theorem transition_right (d : DevState) : transition d evCodeRight = d + 1 := rfl

/-- An event code that is not announced leaves the state (R88, R89). -/
theorem transition_of_not_announces (d : DevState) (e : EvCode) (h : announces e = false) : transition d e = d :=
  not_not.mp (mt (transition_ne_iff d e).mp (by simp [h]))

/-- The same event code four times gives the state back (R91 item 3); the codes that are no event do so too. -/
theorem transition_iterate_four (e : EvCode) (d : DevState) : (transition · e)^[4] d = d := by
  cases ha : announces e with
  | false => exact Function.iterate_fixed (transition_of_not_announces d e ha) 4
  | true =>
    rcases (announces_iff e).mp ha with rfl | rfl
    · change d - 1 - 1 - 1 - 1 = d
      bv_omega
    · change d + 1 + 1 + 1 + 1 = d
      bv_omega

/-- Settles O50: the two codes that are not announced for every state, then the four cases of each rotation. -/
theorem transitionTable : Obligations.TransitionTable :=
  ⟨fun d => ⟨transition_of_not_announces d _ rfl, transition_of_not_announces d _ rfl⟩,
    transition_left 0, transition_left 1, transition_left 2, transition_left 3,
    transition_right 0, transition_right 1, transition_right 2, transition_right 3⟩

/-- Settles O51: LEFT and RIGHT take 1 off and put 1 on, modulo 4. -/
theorem rotationLaws : Obligations.RotationLaws := by
  intro d
  refine ⟨?_, ?_, transition_iterate_four evCodeRight d, transition_iterate_four evCodeLeft d,
    (transition_ne_iff d _).mpr announces_left, (transition_ne_iff d _).mpr announces_right, ?_⟩
  · rw [transition_left, transition_right, BitVec.sub_add_cancel]
  · rw [transition_left, transition_right, BitVec.add_sub_cancel]
  · rw [transition_left, transition_left, transition_right, transition_right]
    bv_omega

/-! ### The operations on the event bus (R86 to R89) -/

/-- An announced event writes the new state and its notification (R92). -/
theorem applyEvent_of_announces (s : State) (e : EvCode) (h : announces e = true) :
    s.applyEvent e = { s with upd := { s.upd with
      state := transition s.regs.state e, noteValid := true, noteCode := statusCode (transition s.regs.state e) } } := by
  simp [applyEvent_eq, h]

/-- Any other code writes back the state that was read. -/
theorem applyEvent_of_not_announces (s : State) (e : EvCode) (h : announces e = false) :
    s.applyEvent e = { s with upd := { s.upd with state := s.regs.state } } := by
  simp [applyEvent_eq, h, transition_of_not_announces]

/-- Settles O3: the codes are the encodings of the two operations, each of which applies an announced event. -/
theorem eventsRotateTheState : Obligations.EventsRotateTheState :=
  ⟨decodeOfEncodeIsTheOperation .evLeft rfl, decodeOfEncodeIsTheOperation .evRight rfl, fun s =>
    ⟨congrArg Host.Outcome.next (applyEvent_of_announces s evCodeLeft announces_left),
      congrArg Host.Outcome.next (applyEvent_of_announces s evCodeRight announces_right)⟩⟩

/-- Settles O4: the codes are the encodings of the two operations, neither of which applies an announced event. -/
theorem noEventAndReservedEventKeepTheState : Obligations.NoEventAndReservedEventKeepTheState :=
  ⟨decodeOfEncodeIsTheOperation .evNone rfl, decodeOfEncodeIsTheOperation .evRsvd rfl, fun s =>
    ⟨congrArg Host.Outcome.next (applyEvent_of_not_announces s evCodeNone announces_none),
      congrArg Host.Outcome.next (applyEvent_of_not_announces s evCodeRsvd rfl)⟩⟩

/-! ### Command bytes at the receive port (R92, R119, R120) -/

/-- A byte decides the event of its cycle, whatever waits in `FIRE` (R119, R135). -/
theorem evOf_of_byte (r : Regs) (w : InWord) (h : InWord.rxValid w = true) :
    evOf r w = (decodeByte (InWord.rxData w)).getD evCodeNone := by
  simp only [evOf, cmdLeft, cmdRight, btnGrant_eq_false r w h, h, Bool.true_and, beq_iff_eq, Bool.false_eq_true, if_false,
    decodeByte]
  split_ifs <;> rfl

/-- `w` is the input of a cycle without reset whose byte stands for the event `e`. -/
structure CarriesCommand (e : EvCode) (w : InWord) : Prop where
  rst : InWord.rst w = false
  rxValid : InWord.rxValid w = true
  decodes : decodeByte (InWord.rxData w) = some e

/-- The Device State is `d`, and the notification of this cycle names it (R92). -/
structure NamesState (d : DevState) (r : Regs) : Prop where
  state : r.state = d
  valid : r.noteValid = true
  code : r.noteCode = statusCode d

/-- A cycle with a command byte applies the byte's event and announces it, whatever the sequencer does (R92, R120). -/
theorem CarriesCommand.namesState_nextRegs {e : EvCode} {w : InWord} (h : CarriesCommand e w)
    (he : announces e = true) (p : Params) (r : Regs) : NamesState (transition r.state e) (nextRegs p r w) := by
  obtain ⟨hrst, hrx, hbyte⟩ := h
  have hevent : evOf r w = e := by rw [evOf_of_byte r w hrx, hbyte, Option.getD_some]
  have hnote : noteNext r w = (true, statusCode (transition r.state e)) := by
    rw [noteNext_of_announces r w (by rwa [hevent]), hevent]
  constructor <;> simp [nextRegs, hrst, hevent, hnote]

/-- Cycles that all carry the same command apply its event once each, and the last notification names the state reached. -/
theorem namesState_runRegs {e : EvCode} (he : announces e = true) (p : Params) (w : InWord) (ws : List InWord) (r : Regs)
    (hws : ∀ v ∈ w :: ws, CarriesCommand e v) :
    NamesState ((transition · e)^[(w :: ws).length] r.state) (runRegs p (w :: ws) r) := by
  induction ws generalizing w r with
  | nil => exact (hws w (by simp)).namesState_nextRegs he p r
  | cons v vs ih =>
    obtain ⟨hw, hvs⟩ := List.forall_mem_cons.mp hws
    have hrest := ih v (nextRegs p r w) hvs
    rwa [(hw.namesState_nextRegs he p r).state] at hrest

/-- Settles O52: the byte stands for an event, and that event applied four times gives the state back. -/
theorem fourEqualCommandsRestoreTheState : Obligations.FourEqualCommandsRestoreTheState := by
  intro s ws rest b hwhole hinputs hlength hb hws
  obtain ⟨e, hbyte, he⟩ : ∃ e, decodeByte b = some e ∧ announces e = true := by
    rcases hb with rfl | rfl
    · exact ⟨evCodeLeft, rfl, announces_left⟩
    · exact ⟨evCodeRight, rfl, announces_right⟩
  have hcommands : ∀ w ∈ ws, CarriesCommand e w := fun w hw =>
    have ⟨hrst, hrx, hdata⟩ := hws w hw
    ⟨hrst, hrx, hdata ▸ hbyte⟩
  obtain ⟨t, hsteps, hregs, -⟩ := steps_listed ws rest s hwhole hinputs
  obtain ⟨w, ws, rfl⟩ := List.exists_cons_of_length_eq_add_one hlength
  have hlast := namesState_runRegs he s.cfg w ws s.regs hcommands
  rw [hlength, transition_iterate_four, ← hregs] at hlast
  exact ⟨t, hlength ▸ hsteps, hlast.state, hlast.valid, hlast.code⟩

end Sys2Proof.Machine

/-! The statements of `42_output_mux.md`: the projection (R100), the message table (R104), the notification port (R105,
R106), and the LEDs in a cycle with a status notification (R109). What is presented is said once of `noteNext`: when, with
which code, and what the code is otherwise. -/

namespace Sys2Proof.Machine

/-! ### Operations (R100, R105) -/

/-- Settles O12: the select values are the encodings of the four operations, each of which is one `drive`. -/
theorem projectionDrivesLedsAndMessage : Obligations.ProjectionDrivesLedsAndMessage :=
  ⟨decodeOfEncodeIsTheOperation .projOne rfl, decodeOfEncodeIsTheOperation .projTwo rfl,
    decodeOfEncodeIsTheOperation .projThree rfl, decodeOfEncodeIsTheOperation .projFour rfl,
    fun _ => ⟨rfl, rfl, rfl, rfl⟩⟩

/-- Well-formed operations of one carrier are read back from their patterns, in order. -/
theorem map_decode_encode (c : Carrier) (is : List Instr) (h : ∀ i ∈ is, i.wf = true ∧ i.carrier = c) :
    (is.map encode).map (decode c) = is.map .ok := by
  rw [List.map_map]
  refine List.map_congr_left fun i hi => ?_
  obtain ⟨hwf, rfl⟩ := h i hi
  exact decodeOfEncodeIsTheOperation i hwf

/-- Settles O13: the codes are the encodings of the eight operations, five of which are one `notify` each. -/
theorem notificationOperationsWriteTheirCode : Obligations.NotificationOperationsWriteTheirCode :=
  ⟨map_decode_encode .note3
      [.noteS1, .noteS2, .noteS3, .noteS4, .noteInv, .noteRsvd 5#3, .noteRsvd 6#3, .noteRsvd 7#3] (by decide),
    fun _ _ => ⟨rfl, rfl, rfl, rfl, rfl, rfl⟩⟩

/-! ### Messages (R104) -/

/-- The status code of a state has that state in its low two bits (R51, R56). -/
theorem setWidth_statusCode (d : DevState) : (statusCode d).setWidth 2 = d := by
  rw [statusCode, BitVec.setWidth_setWidth_of_le d (by decide), BitVec.setWidth_eq]

/-- A status code selects the status line of its state, the message that `project` gives for it (R100, R104). -/
theorem messageOf_statusCode (d : DevState) : messageOf (statusCode d) = some (.status d) := by
  rw [messageOf, if_pos (Nat.lt_succ_of_le (statusCode_le d)), setWidth_statusCode]

/-- The invalid code selects the invalid-command line. -/
theorem messageOf_noteInvCode : messageOf noteInvCode = some .invalid := rfl

/-- The codes above `NOTE.INV` select no message. -/
theorem messageOf_eq_none (c : NoteCode) (h : noteInvCode < c) : messageOf c = none := by
  have hlt : 4 < c.toNat := h
  rw [messageOf, if_neg (by omega), if_neg (BitVec.ne_of_lt h).symm]

/-- Settles O48: each code selects its message, whose text and bytes are then literals. -/
theorem messageTable : Obligations.MessageTable := by
  have h0 : messageOf 0 = some (.status stOne) := messageOf_statusCode stOne
  have h1 : messageOf 1 = some (.status stTwo) := messageOf_statusCode stTwo
  have h2 : messageOf 2 = some (.status stThree) := messageOf_statusCode stThree
  have h3 : messageOf 3 = some (.status stFour) := messageOf_statusCode stFour
  have h4 : messageOf 4 = some .invalid := messageOf_noteInvCode
  unfold Obligations.MessageTable
  rw [h0, h1, h2, h3, h4]
  exact ⟨rfl, rfl, rfl, rfl, rfl, rfl, rfl, rfl, rfl, rfl, messageOf_eq_none 5 (by decide),
    messageOf_eq_none 6 (by decide), messageOf_eq_none 7 (by decide), messageOf_statusCode⟩

/-! ### The notification of a cycle (R105, R106) -/

/-- A byte is invalid when it is neither command byte (R119). -/
theorem cmdInvalid_iff (w : InWord) :
    cmdInvalid w = true ↔ InWord.rxValid w = true ∧ InWord.rxData w ≠ 0x6C#8 ∧ InWord.rxData w ≠ 0x72#8 := by
  simp [cmdInvalid, Config.cmdLeftByte, Config.cmdRightByte, and_assoc]

/-- A notification is presented exactly for an invalid byte and for an announced event. -/
theorem noteNext_valid_eq (r : Regs) (w : InWord) : (noteNext r w).1 = (cmdInvalid w || announces (evOf r w)) := by
  rw [noteNext_eq]
  cases cmdInvalid w <;> cases announces (evOf r w) <;> rfl

/-- A notification is owed for every byte, and for a button event that waits in `FIRE`: a byte in `FIRE` holds the event
back and is itself notified. -/
theorem noteNext_valid_iff (r : Regs) (w : InWord) :
    (noteNext r w).1 = true ↔ InWord.rxValid w = true ∨ r.phase = phFire := by
  have hbyte : InWord.rxValid w = true ↔ (cmdLeft w = true ∨ cmdRight w = true) ∨ cmdInvalid w = true := by
    rw [cmd_classes, Bool.or_eq_true, Bool.or_eq_true]
  have hgrant : btnGrant r w = true ↔ ¬ InWord.rxValid w = true ∧ r.phase = phFire := by
    rw [btnGrant_iff, Bool.not_eq_true]
  rw [noteNext_valid_eq, Bool.or_eq_true, announces_evOf_iff, hgrant]
  tauto

/-- The code presented is the invalid code for an invalid byte, and otherwise that of the new state. -/
theorem noteNext_code_of_valid (r : Regs) (w : InWord) (h : (noteNext r w).1 = true) :
    (noteNext r w).2 = if cmdInvalid w then noteInvCode else statusCode (transition r.state (evOf r w)) := by
  cases hinvalid : cmdInvalid w with
  | true => rw [noteNext_of_invalid r w hinvalid, if_pos rfl]
  | false =>
    rw [noteNext_valid_eq, hinvalid, Bool.false_or] at h
    rw [noteNext_of_announces r w h, if_neg Bool.false_ne_true]

/-- With nothing to present the code is kept. -/
theorem noteNext_code_of_not_valid (r : Regs) (w : InWord) (h : (noteNext r w).1 = false) :
    (noteNext r w).2 = r.noteCode := by
  rw [noteNext_valid_eq, Bool.or_eq_false_iff] at h
  obtain ⟨hinvalid, hquiet⟩ := h
  simp [noteNext_eq, hinvalid, hquiet]

/-- The Device State and the notification registers after a cycle without reset (R138). -/
theorem nextRegs_report (p : Params) (r : Regs) (w : InWord) (hrst : InWord.rst w = false) :
    (nextRegs p r w).state = transition r.state (evOf r w) ∧
      (nextRegs p r w).noteValid = (noteNext r w).1 ∧ (nextRegs p r w).noteCode = (noteNext r w).2 := by
  simp [nextRegs, hrst]

/-- Settles O45: the notification registers after a cycle are `noteNext`, and the state is the one its code names. -/
theorem notificationExactlyWhenOwed : Obligations.NotificationExactlyWhenOwed := by
  intro s hwhole hrst
  obtain ⟨hstate, hvalid, hcode⟩ := nextRegs_report s.cfg s.regs s.input hrst
  refine ⟨_, step_whole s hwhole, ?_⟩
  simp only [closeCycle_regs, hstate, hvalid, hcode]
  refine ⟨noteNext_valid_iff _ _, fun h => ?_, noteNext_code_of_not_valid _ _⟩
  simp only [noteNext_code_of_valid _ _ h, cmdInvalid_iff]

/-! ### The LEDs in the cycle of a notification (R109) -/

/-- A status notification names the state of its own cycle, whatever the cycle before: in a reset cycle there is none. -/
theorem nextRegs_names_state (p : Params) (r : Regs) (w : InWord) (hvalid : (nextRegs p r w).noteValid = true)
    (hcode : (nextRegs p r w).noteCode.toNat ≤ 3) :
    (nextRegs p r w).noteCode = statusCode (nextRegs p r w).state := by
  unfold nextRegs at hvalid hcode ⊢
  split_ifs at hvalid hcode ⊢
  · cases hvalid
  · exact noteNext_names_state r w hvalid hcode

/-- The two low bits of a status code are the LED pair of its state (R56, R101, R102). -/
theorem leds_of_statusCode (d : DevState) :
    led1Of d = (statusCode d).getLsbD 1 ∧ led2Of d = (statusCode d).getLsbD 0 := by
  simp [led1Of, led2Of, statusCode]

/-- Settles O46: the LEDs show the state, and the code names it. -/
theorem statusNotificationNamesTheLeds : Obligations.StatusNotificationNamesTheLeds := by
  intro s t hwhole hstep hvalid hcode
  rw [step_whole s hwhole] at hstep
  cases hstep
  rw [closeCycle_regs] at hvalid hcode ⊢
  rw [nextRegs_names_state _ _ _ hvalid hcode]
  exact leds_of_statusCode _

end Sys2Proof.Machine

/-! The statements of `43_command_decoder.md`: the operations `CMD.*` (R116 to R118), the classes of a byte (R115, R119), and
a cycle with a byte of each class and without one (R119, R120). A cycle is spoken of through `next` (`step_whole`). -/

namespace Sys2Proof.Machine

/-! ### One operation at a time (R116 to R118) -/

/-- Settles O1: the bytes are the encodings of the two operations, each of which applies an announced event. -/
theorem commandByteAppliesItsEvent : Obligations.CommandByteAppliesItsEvent :=
  ⟨decodeOfEncodeIsTheOperation .cmdL rfl, decodeOfEncodeIsTheOperation .cmdR rfl, fun s =>
    ⟨congrArg Host.Outcome.next (applyEvent_of_announces s evCodeLeft announces_left),
      congrArg Host.Outcome.next (applyEvent_of_announces s evCodeRight announces_right)⟩⟩

/-- Settles O2: the byte takes the default row of CMD8, whose operation applies no event and then reports. -/
theorem invalidByteIsReported : Obligations.InvalidByteIsReported := by
  intro s b
  constructor
  · intro (hl : b ≠ Config.cmdLeftByte) (hr : b ≠ Config.cmdRightByte)
    rw [decode_cmd8, if_neg hl, if_neg hr]
  · exact congrArg (fun t => Host.Outcome.next t.reportInvalid)
      (applyEvent_of_not_announces s evCodeNone announces_none)

/-! ### The classes of a byte (R115, R119) -/

/-- Any byte but the two command bytes stands for no event (R115). -/
theorem decodeByte_eq_none (b : Byte) (hl : b ≠ Config.cmdLeftByte) (hr : b ≠ Config.cmdRightByte) :
    decodeByte b = none := by
  rw [decodeByte, if_neg hl, if_neg hr]

/-- As many of the three classes hold as there are bytes in the cycle: at most one holds (`cmdRight_of_cmdLeft`,
`cmdInvalid_eq_false`), and one does exactly when there is a byte (`cmd_classes`). -/
theorem count_classes (w : InWord) :
    [cmdLeft w, cmdRight w, cmdInvalid w].count true = if InWord.rxValid w = true then 1 else 0 := by
  rw [cmd_classes]
  cases hl : cmdLeft w with
  | true => simp [cmdRight_of_cmdLeft w hl, cmdInvalid_eq_false w (.inl hl)]
  | false =>
    cases hr : cmdRight w with
    | true => simp [cmdInvalid_eq_false w (.inr hr)]
    | false => cases cmdInvalid w <;> rfl

/-- Settles O20: the definitions of the three classes, their count, and `decode_byte`. -/
theorem everyByteHasExactlyOneClass : Obligations.EveryByteHasExactlyOneClass :=
  ⟨fun w => ⟨cmdLeft_iff w, cmdRight_iff w, cmdInvalid_iff w, count_classes w⟩, rfl, rfl, decodeByte_eq_none⟩

/-! ### A cycle with a byte (R118, R120, R136) -/

/-- Settles O32: each command byte stands for its event, which the cycle applies and announces. -/
theorem commandIsAppliedInItsCycle : Obligations.CommandIsAppliedInItsCycle := by
  intro s hwhole hrst hrx
  have hcommand (e : EvCode) (he : announces e = true) (hbyte : decodeByte (InWord.rxData s.input) = some e) :
      NamesState (transition s.regs.state e) (nextRegs s.cfg s.regs s.input) :=
    CarriesCommand.namesState_nextRegs ⟨hrst, hrx, hbyte⟩ he s.cfg s.regs
  refine ⟨_, step_whole s hwhole, fun hdata => ?_, fun hdata => ?_⟩
  · obtain ⟨hstate, hvalid, hcode⟩ := hcommand evCodeLeft announces_left (by rw [hdata]; rfl)
    exact ⟨hstate, hvalid, hcode⟩
  · obtain ⟨hstate, hvalid, hcode⟩ := hcommand evCodeRight announces_right (by rw [hdata]; rfl)
    exact ⟨hstate, hvalid, hcode⟩

/-- A cycle with an invalid byte keeps the state and reports the byte (R118). -/
theorem nextRegs_of_invalid (p : Params) (r : Regs) (w : InWord) (hrst : InWord.rst w = false)
    (h : cmdInvalid w = true) :
    (nextRegs p r w).state = r.state ∧ (nextRegs p r w).noteValid = true ∧
      (nextRegs p r w).noteCode = noteInvCode := by
  obtain ⟨hrx, hl, hr⟩ := (cmdInvalid_iff w).mp h
  have hevent : evOf r w = evCodeNone := by
    rw [evOf_of_byte r w hrx, decodeByte_eq_none _ hl hr, Option.getD_none]
  obtain ⟨hstate, hvalid, hcode⟩ := nextRegs_report p r w hrst
  rw [hstate, hvalid, hcode, hevent, noteNext_of_invalid r w h]
  exact ⟨transition_of_not_announces _ _ announces_none, rfl, rfl⟩

/-- In `FIRE` a byte of any class holds the sequencer where it is (R134, R136). -/
theorem nextRegs_fire_held (p : Params) (r : Regs) (w : InWord) (hrst : InWord.rst w = false)
    (hrx : InWord.rxValid w = true) (hfire : r.phase = phFire) :
    (nextRegs p r w).sequencer = (phFire, r.svc, r.timer) := by
  rw [nextRegs_sequencer p r w hrst, seqNext_of_fire p r w hfire, if_pos hrx]

/-- Settles O33: the byte is of the invalid class, and like any byte it holds `FIRE`. -/
theorem invalidByteChangesNoStateAndHoldsTheArbiter :
    Obligations.InvalidByteChangesNoStateAndHoldsTheArbiter := by
  intro s hwhole hrst hrx hl hr
  obtain ⟨hstate, hvalid, hcode⟩ :=
    nextRegs_of_invalid s.cfg s.regs s.input hrst ((cmdInvalid_iff _).mpr ⟨hrx, hl, hr⟩)
  refine ⟨_, step_whole s hwhole, hstate, hvalid, hcode, fun hfire => ?_⟩
  have hheld := nextRegs_fire_held s.cfg s.regs s.input hrst hrx hfire
  obtain ⟨hphase, hsvc, -⟩ := (sequencer_eq_iff _ _ _ _).mp hheld
  exact ⟨hphase, hsvc⟩

/-! ### A cycle without a byte (R119) -/

/-- Without a byte there is only the event of a button that waits in `FIRE` (R133, R135). -/
theorem evOf_of_no_byte (r : Regs) (w : InWord) (h : InWord.rxValid w = false) :
    evOf r w = if r.phase = phFire then Button.event r.svc else evCodeNone := by
  simp [evOf, cmdLeft, cmdRight, btnGrant, h]

/-- Without a byte none is invalid. -/
theorem cmdInvalid_of_no_byte (w : InWord) (h : InWord.rxValid w = false) : cmdInvalid w = false := by
  simp [cmdInvalid, h]

/-- The flags read the pins alone (R65, R70). -/
theorem pendNext_congr (r : Regs) (w w' : InWord) (x : Button) (hbtn : InWord.btn w = InWord.btn w') :
    pendNext r w x = pendNext r w' x := by
  have hfall : fall r w x = fall r w' x := by rw [fall, hbtn, fall]
  rw [pendNext, hfall, pendNext]

/-- The sequencer reads the pins and the strobe alone (R54). -/
theorem seqNext_congr (p : Params) (r : Regs) (w w' : InWord) (hbtn : InWord.btn w = InWord.btn w')
    (hrx : InWord.rxValid w = InWord.rxValid w') : seqNext p r w = seqNext p r w' := by
  have hpin : pinSvc r w = pinSvc r w' := congrFun hbtn r.svc
  have hgrant : btnGrant r w = btnGrant r w' := by rw [btnGrant, hrx, btnGrant]
  simp only [seqNext, hpin, hgrant]

/-- Without a byte the notification reads no input at all (R105). -/
theorem noteNext_congr_of_no_byte (r : Regs) (w w' : InWord) (hrx : InWord.rxValid w = false)
    (hrx' : InWord.rxValid w' = false) : noteNext r w = noteNext r w' := by
  simp only [noteNext, cmdInvalid_of_no_byte, evOf_of_no_byte, hrx, hrx']

/-- In a cycle without reset and without a byte, `next` reads the pins alone. -/
theorem nextRegs_congr_of_no_byte (p : Params) (r : Regs) (w w' : InWord) (hrst : InWord.rst w = false)
    (hrst' : InWord.rst w' = false) (hbtn : InWord.btn w = InWord.btn w') (hrx : InWord.rxValid w = false)
    (hrx' : InWord.rxValid w' = false) : nextRegs p r w = nextRegs p r w' := by
  have hevent : evOf r w = evOf r w' := by rw [evOf_of_no_byte r w hrx, evOf_of_no_byte r w' hrx']
  have hprevL : InWord.btnL w = InWord.btnL w' := congrFun hbtn .left
  have hprevR : InWord.btnR w = InWord.btnR w' := congrFun hbtn .right
  simp only [nextRegs, hrst, hrst', hevent, hprevL, hprevR, pendNext_congr r w w' _ hbtn,
    seqNext_congr p r w w' hbtn (hrx.trans hrx'.symm), noteNext_congr_of_no_byte r w w' hrx hrx']

/-- A step of the whole block uses the first listed word up, and nothing but `next` reads it. -/
theorem step_listed (s : State) (w : InWord) (ws : List InWord) (hwhole : s.presented = none) :
    step { s with inputs := w :: ws } = .next
      { s with
        regs := nextRegs s.cfg s.regs w
        upd := nextRegs s.cfg s.regs w
        out := outOf s.regs
        inputs := ws
        cycle := s.cycle + 1
        presented := none } :=
  step_whole { s with inputs := w :: ws } hwhole

/-- Settles O34: the step reads the word through `next` alone (`step_listed`), and `next` reads its pins alone. -/
theorem receiveDataIgnoredWithoutStrobe : Obligations.ReceiveDataIgnoredWithoutStrobe := by
  intro s w w' ws hwhole hrst hrst' hbtnL hbtnR hrx hrx'
  have hbtn : InWord.btn w = InWord.btn w' := by
    funext x
    cases x
    · exact hbtnL
    · exact hbtnR
  rw [step_listed s w ws hwhole, step_listed s w' ws hwhole,
    nextRegs_congr_of_no_byte s.cfg s.regs w w' hrst hrst' hbtn hrx hrx']

end Sys2Proof.Machine

/-! The statements of `44_dispatch_arbiter.md`: the step as the one function of R138 and R139, the priorities of the event bus
(R135), the operations of the sequencer (R131, R133, R134, R137), and its phases cycle by cycle (R131 to R137). A cycle is
spoken of through `next` (`step_whole`), and a run of several cycles through `next` applied to the listed words
(`steps_listed`). -/

namespace Sys2Proof.Machine

/-! ### The step (R138, R139) -/

/-- Settles O28: the operations of the cycle write `next` and show `out` (`step_whole`), and the clock edge takes `next` over. -/
theorem stepIsNextOfTheSpec : Obligations.StepIsNextOfTheSpec :=
  fun s hwhole => step_whole s hwhole

/-! ### The event bus (R135) -/

/-- The reserved event code is never driven (R135). -/
theorem evOf_ne_rsvd (r : Regs) (w : InWord) : evOf r w ≠ evCodeRsvd := by
  unfold evOf
  split_ifs
  · decide
  · decide
  · cases r.svc <;> decide
  · decide

/-- Settles O44: a byte decides the event by what it decodes to, and without one the phase and the serviced button do. -/
theorem arbiterPriorities : Obligations.ArbiterPriorities := by
  intro r w
  refine ⟨evOf_ne_rsvd r w, fun hrx hdata => ?_, fun hrx hdata => ?_, fun hrx hl hr => ?_,
    fun hrx hfire hsvc => ?_, fun hrx hfire hsvc => ?_, fun hrx hphase => ?_⟩
  · rw [evOf_of_byte r w hrx, hdata]
    rfl
  · rw [evOf_of_byte r w hrx, hdata]
    rfl
  · rw [evOf_of_byte r w hrx, decodeByte_eq_none _ hl hr, Option.getD_none]
  · rw [evOf_of_no_byte r w hrx, if_pos hfire, hsvc, Button.event]
  · rw [evOf_of_no_byte r w hrx, if_pos hfire, hsvc, Button.event]
  · rw [evOf_of_no_byte r w hrx, if_neg hphase]

/-! ### One operation at a time (R131, R133, R134, R137) -/

/-- Settles O5: each of the three operations is one `setPhase`. -/
theorem waitingOperationsWriteOnlyThePhase : Obligations.WaitingOperationsWriteOnlyThePhase :=
  fun _ _ _ _ _ _ => ⟨rfl, rfl, rfl⟩

/-- A grant applies the event of the serviced button, which is always an announced one, and goes to `IDLE` (R77, R133). -/
theorem exec_fireGrant (s : State) (pl pr tz pin : Bool) :
    exec (.fireGrant pl pr tz pin) s = .next { s with upd := { s.upd with
      state := transition s.regs.state (Button.event s.regs.svc)
      noteValid := true
      noteCode := statusCode (transition s.regs.state (Button.event s.regs.svc))
      phase := phIdle } } :=
  congrArg (fun t : State => Host.Outcome.next (t.setPhase phIdle)) (applyEvent_of_announces s _ (announces_event _))

/-- Settles O6: LEFT's event takes one off the state, RIGHT's puts one on. -/
theorem grantAppliesTheButtonsEvent : Obligations.GrantAppliesTheButtonsEvent := by
  intro s pl pr tz pin
  rw [exec_fireGrant]
  constructor
  · intro hleft
    rw [hleft, Button.event, transition_left]
  · intro hright
    rw [hright, Button.event, transition_right]

/-! ### The sequencer in `IDLE` (R131) -/

/-- In `IDLE` with no flag the sequencer keeps its registers (R131). -/
theorem nextRegs_idle_waits (p : Params) (r : Regs) (w : InWord) (hrst : InWord.rst w = false) (hidle : r.phase = phIdle)
    (hl : r.pendL = false) (hr : r.pendR = false) : (nextRegs p r w).sequencer = (phIdle, r.svc, r.timer) := by
  rw [nextRegs_sequencer p r w hrst, seqNext_of_idle p r w hidle]
  simp [hl, hr]

/-- Settles O39: the service of the one button or of the other starts, or the sequencer waits. -/
theorem idleServesLeftFirst : Obligations.IdleServesLeftFirst := by
  intro s hwhole hrst hidle
  refine ⟨_, step_whole s hwhole, fun hl => ?_, fun hl hr => ?_, fun hl hr => ?_⟩
  · exact (sequencer_eq_iff _ _ _ _).mp
      (nextRegs_starts_service s.cfg s.regs s.input .left hrst hidle hl nofun)
  · exact (sequencer_eq_iff _ _ _ _).mp
      (nextRegs_starts_service s.cfg s.regs s.input .right hrst hidle hr (fun _ => hl))
  · exact (sequencer_eq_iff _ _ _ _).mp (nextRegs_idle_waits s.cfg s.regs s.input hrst hidle hl hr)

/-! ### The other phases: no service starts (R132, R137) -/

/-- No service starts outside `IDLE` (R132). -/
theorem start_eq_false (r : Regs) (x : Button) (h : r.phase ≠ phIdle) : start r x = false := by
  cases x <;> simp [start, h]

/-- Outside `IDLE` a flag stays set, or is set by a falling edge of its own pin (R70, R132). -/
theorem nextRegs_pend_of_not_idle (p : Params) (r : Regs) (w : InWord) (hrst : InWord.rst w = false)
    (h : r.phase ≠ phIdle) (x : Button) : (nextRegs p r w).pend x = (r.pend x || fall r w x) := by
  rw [nextRegs_pend p r w hrst, pendNext_eq, start_eq_false r x h, if_neg Bool.false_ne_true, Bool.or_comm]

/-- Outside `IDLE` the button is kept and the timer is not loaded (R132). -/
theorem seqNext_of_not_idle (p : Params) (r : Regs) (w : InWord) (h : r.phase ≠ phIdle) :
    (seqNext p r w).2.1 = r.svc ∧ (seqNext p r w).2.2 ≤ r.timer := by
  rcases phase_cases r.phase with hphase | hphase | hphase | hphase
  · exact absurd hphase h
  · rw [seqNext_of_settle p r w hphase]
    split_ifs <;> simp
  · simp [seqNext_of_fire p r w hphase]
  · simp [seqNext_of_rsvd p r w hphase]

/-- Settles O41: neither phase is `IDLE`, so the service in progress goes on alone and no flag is taken. -/
theorem oneServiceAtATime : Obligations.OneServiceAtATime := by
  intro s hwhole hrst hbusy
  have hphase : s.regs.phase ≠ phIdle := by
    rcases hbusy with h | h <;> simp [h]
  obtain ⟨hsvc, htimer⟩ := seqNext_of_not_idle s.cfg s.regs s.input hphase
  rw [← nextRegs_sequencer s.cfg s.regs s.input hrst] at hsvc htimer
  refine ⟨_, step_whole s hwhole, hsvc, htimer, fun x hpend => ?_⟩
  rw [closeCycle_regs, nextRegs_pend_of_not_idle s.cfg s.regs s.input hrst hphase, hpend, Bool.true_or]

/-- Settles O43: the sequencer goes to `IDLE`, no flag is taken, and without a byte there is no event. -/
theorem reservedPhaseRecovers : Obligations.ReservedPhaseRecovers := by
  intro s hwhole hrst hrsvd
  have hseq := nextRegs_sequencer s.cfg s.regs s.input hrst
  rw [seqNext_of_rsvd s.cfg s.regs s.input hrsvd] at hseq
  obtain ⟨hphase, hsvc, htimer⟩ := (sequencer_eq_iff _ _ _ _).mp hseq
  have hpend := nextRegs_pend_of_not_idle s.cfg s.regs s.input hrst (by simp [hrsvd])
  exact ⟨_, step_whole s hwhole, hphase, hsvc, htimer, hpend, fun hrx =>
    nextRegs_of_no_event s.cfg s.regs s.input hrst hrx (by simp [hrsvd])⟩

/-! ### The sequencer in `FIRE` (R133, R134) -/

/-- In `FIRE` a cycle without a byte ends the service (R133). -/
theorem nextRegs_fire_granted (p : Params) (r : Regs) (w : InWord) (hrst : InWord.rst w = false)
    (hrx : InWord.rxValid w = false) (hfire : r.phase = phFire) :
    (nextRegs p r w).sequencer = (phIdle, r.svc, r.timer) := by
  rw [nextRegs_sequencer p r w hrst, seqNext_of_fire p r w hfire, hrx, if_neg Bool.false_ne_true]

/-- In `FIRE` a cycle without a byte applies the event of the serviced button and announces it (R133). -/
theorem namesState_nextRegs_fire (p : Params) (r : Regs) (w : InWord) (hrst : InWord.rst w = false)
    (hrx : InWord.rxValid w = false) (hfire : r.phase = phFire) :
    NamesState (transition r.state (Button.event r.svc)) (nextRegs p r w) := by
  have hevent : evOf r w = Button.event r.svc := by rw [evOf_of_no_byte r w hrx, if_pos hfire]
  have hnote := noteNext_of_announces r w (by rw [hevent, announces_event])
  obtain ⟨hstate, hvalid, hcode⟩ := nextRegs_report p r w hrst
  rw [hevent] at hnote hstate
  rw [hnote] at hvalid hcode
  exact ⟨hstate, hvalid, hcode⟩

/-- Settles O42: without a byte the event is granted, with one the sequencer is held. -/
theorem fireGrantsOrHolds : Obligations.FireGrantsOrHolds := by
  intro s hwhole hrst hfire
  have hstep := step_whole s hwhole
  cases hrx : InWord.rxValid s.input with
  | true =>
    have hheld := nextRegs_fire_held s.cfg s.regs s.input hrst hrx hfire
    obtain ⟨hphase, hsvc, htimer⟩ := (sequencer_eq_iff _ _ _ _).mp hheld
    exact ⟨_, hstep, hsvc, htimer, nofun, fun _ => hphase⟩
  | false =>
    have hgranted := nextRegs_fire_granted s.cfg s.regs s.input hrst hrx hfire
    obtain ⟨hphase, hsvc, htimer⟩ := (sequencer_eq_iff _ _ _ _).mp hgranted
    obtain ⟨hstate, hvalid, hcode⟩ := namesState_nextRegs_fire s.cfg s.regs s.input hrst hrx hfire
    refine ⟨_, hstep, hsvc, htimer, fun _ => ⟨hphase, hvalid, hcode.trans ?_, fun hl => ?_, fun hr => ?_⟩, nofun⟩
    · rw [closeCycle_regs, hstate]
    · rw [closeCycle_regs, hstate, hl, Button.event, transition_left]
    · rw [closeCycle_regs, hstate, hr, Button.event, transition_right]

/-! ### An event that waits through bytes (R134) -/

/-- Through any run of bytes `FIRE` is held with its button, and the bytes alone move the state (R134, R135). -/
theorem runRegs_fire_held (p : Params) (ws : List InWord) (r : Regs) (hfire : r.phase = phFire)
    (hws : ∀ v ∈ ws, InWord.rst v = false ∧ InWord.rxValid v = true) :
    (runRegs p ws r).phase = phFire ∧ (runRegs p ws r).svc = r.svc ∧
      (runRegs p ws r).state = commandsAlone r.state ws := by
  induction ws generalizing r with
  | nil => exact ⟨hfire, rfl, rfl⟩
  | cons w ws ih =>
    obtain ⟨⟨hrst, hrx⟩, hws⟩ := List.forall_mem_cons.mp hws
    have hheld := nextRegs_fire_held p r w hrst hrx hfire
    obtain ⟨hphase, hsvc, -⟩ := (sequencer_eq_iff _ _ _ _).mp hheld
    obtain ⟨hstate, -⟩ := nextRegs_report p r w hrst
    rw [evOf_of_byte r w hrx] at hstate
    rw [runRegs_cons, commandsAlone_cons_byte r.state w ws hrx, ← hstate, ← hsvc]
    exact ih _ hphase hws

/-- The last step of a run may be taken apart from it. -/
theorem steps_succ_last (k : Nat) (s : State) : steps (k + 1) s = andThen (steps k s) step := by
  rw [steps_add]
  exact congrArg (andThen (steps k s)) (funext fun t => andThen_pure (step t))

/-- Settles O57: the run of bytes holds the event (`runRegs_fire_held`), and the cycle after it grants the event. -/
theorem waitingEventIsNeitherLostNorDoubled : Obligations.WaitingEventIsNeitherLostNorDoubled := by
  intro s ws w rest hwhole hfire hinputs hws hrst hrx
  obtain ⟨t, hsteps, hregs, -, hrest, hwhole'⟩ := steps_listed ws (w :: rest) s hwhole hinputs
  have hheld := runRegs_fire_held s.cfg ws s.regs hfire hws
  rw [← hregs] at hheld
  obtain ⟨hphase, hsvc, hstate⟩ := hheld
  have hinput : t.input = w := input_of_cons t w rest hrest
  have hlast := step_whole t hwhole'
  rw [hinput] at hlast
  have hmore : steps (ws.length + 1) s = step t := by rw [steps_succ_last, hsteps, andThen_next]
  obtain ⟨hphase', -⟩ := (sequencer_eq_iff _ _ _ _).mp (nextRegs_fire_granted t.cfg t.regs w hrst hrx hphase)
  obtain ⟨hstate', hvalid, hcode⟩ := namesState_nextRegs_fire t.cfg t.regs w hrst hrx hphase
  refine ⟨t, _, hsteps, hmore.trans hlast, hphase, hsvc, hstate, hphase', hstate'.trans ?_, hvalid, hcode.trans ?_⟩
  · rw [hsvc]
    cases s.regs.svc <;> rfl
  · rw [closeCycle_regs, hstate']

end Sys2Proof.Machine

/-! The statements of `70_reset_and_hazards.md`: the reset cycle (R23, R170), what follows it (R172, R173), and a press from its
falling edge to its verdict (R178, R181, R184). A press is told in three parts: the cycle of the edge, the service that
re-samples in silence, and the grant. A stretch of cycles without reset, byte or falling edge is one predicate, `Calm`, which
is cut wherever a part ends. -/

namespace Sys2Proof.Machine

/-! ### Reset (R23, R170) -/

/-- Settles O14: `RESET` is `resetRegs`. -/
theorem resetOperationWritesEveryRegister : Obligations.ResetOperationWritesEveryRegister :=
  fun _ _ _ _ _ => rfl

/-- A reset cycle reads neither the registers nor the rest of the word (R170). -/
theorem nextRegs_of_rst (p : Params) (r : Regs) (w : InWord) (hrst : InWord.rst w = true) :
    nextRegs p r w = Regs.reset := if_pos hrst

/-- Settles O35: `next` of a reset cycle is the same for every such word. -/
theorem resetCycleRestoresEveryRegister : Obligations.ResetCycleRestoresEveryRegister := by
  intro s w ws hwhole hinputs hrst
  have hstep : ∀ w', InWord.rst w' = true → step { s with inputs := w' :: ws } = .next
      { s with regs := Regs.reset, upd := Regs.reset, out := outOf s.regs, inputs := ws, cycle := s.cycle + 1 } := by
    intro w' hrst'
    rw [step_listed s w' ws hwhole, nextRegs_of_rst s.cfg s.regs w' hrst', hwhole]
  have hfirst := hstep w hrst
  rw [← hinputs] at hfirst
  obtain ⟨-, hword, -⟩ := resetValues
  exact ⟨_, hfirst, rfl, hword, hstep⟩

/-! ### The first cycle after reset (R172) -/

/-- With no flag set there is none to take, and the flags after the cycle are its falling edges (R67, R70). -/
theorem nextRegs_pend_eq_fall (p : Params) (r : Regs) (w : InWord) (hrst : InWord.rst w = false)
    (hpend : ∀ z, r.pend z = false) : (nextRegs p r w).pend = fall r w := by
  funext z
  rw [nextRegs_pend p r w hrst, pendNext_eq, hpend z, Bool.or_eq_left_iff_imp]
  split_ifs <;> simp

/-- No edge is seen from the samples of the reset (R172). -/
theorem fall_reset (w : InWord) (z : Button) : fall Regs.reset w z = false := by
  cases z <;> rfl

/-- Both flags are 0 when those of LEFT and RIGHT are. -/
theorem pend_eq_false (r : Regs) (hl : r.pendL = false) (hr : r.pendR = false) : ∀ z, r.pend z = false
  | .left => hl
  | .right => hr

/-- Settles O36: the reset samples are 0, so no pin falls, and the sequencer has no flag to serve. -/
theorem firstCycleAfterResetSeesNoEdge : Obligations.FirstCycleAfterResetSeesNoEdge := by
  intro s w0 w1 ws hwhole hinputs hrst0 hrst1
  obtain ⟨t, hsteps, hregs, -⟩ := steps_listed [w0, w1] ws s hwhole hinputs
  have hregs : t.regs = nextRegs s.cfg Regs.reset w1 := by rw [hregs, runRegs_cons, nextRegs_of_rst _ _ _ hrst0]; rfl
  have hprev := nextRegs_prev s.cfg Regs.reset w1 hrst1
  have hpend := nextRegs_pend_eq_fall s.cfg Regs.reset w1 hrst1 (pend_eq_false _ rfl rfl)
  have hwaits := nextRegs_idle_waits s.cfg Regs.reset w1 hrst1 rfl rfl rfl
  rw [← hregs] at hprev hpend hwaits
  obtain ⟨hphase, -⟩ := (sequencer_eq_iff _ _ _ _).mp hwaits
  have hflag (z : Button) : t.regs.pend z = false := by rw [hpend, fall_reset]
  exact ⟨t, hsteps, hflag .left, hflag .right, hprev .left, hprev .right, hphase⟩

/-! ### Stretches without reset, byte or falling edge (R65, R66) -/

/-- From the samples of `r` on, these words carry no reset, no byte and no falling edge. -/
structure Calm (r : Regs) (ws : List InWord) : Prop where
  plain : ∀ v ∈ ws, InWord.rst v = false ∧ InWord.rxValid v = false
  falls : noFalls r.prevL r.prevR ws = true

/-- A stretch is calm when its first cycle is and the rest is, from the samples that cycle takes. -/
theorem calm_cons_iff (p : Params) (r : Regs) (w : InWord) (ws : List InWord) :
    Calm r (w :: ws) ↔ (InWord.rst w = false ∧ InWord.rxValid w = false ∧ ∀ z, fall r w z = false) ∧
      Calm (nextRegs p r w) ws := by
  constructor
  · rintro ⟨hplain, hfalls⟩
    obtain ⟨⟨hrst, hrx⟩, hplain⟩ := List.forall_mem_cons.mp hplain
    obtain ⟨hfall, hfalls⟩ := (noFalls_cons_iff_fall p r w ws hrst).mp hfalls
    exact ⟨⟨hrst, hrx, hfall⟩, hplain, hfalls⟩
  · rintro ⟨⟨hrst, hrx, hfall⟩, hplain, hfalls⟩
    exact ⟨List.forall_mem_cons.mpr ⟨⟨hrst, hrx⟩, hplain⟩, (noFalls_cons_iff_fall p r w ws hrst).mpr ⟨hfall, hfalls⟩⟩

/-- A calm stretch may be cut anywhere. -/
theorem calm_append_iff (p : Params) (ws vs : List InWord) (r : Regs) :
    Calm r (ws ++ vs) ↔ Calm r ws ∧ Calm (runRegs p ws r) vs := by
  induction ws generalizing r with
  | nil => exact (and_iff_right ⟨nofun, rfl⟩).symm
  | cons w ws ih =>
    rw [List.cons_append, calm_cons_iff p, ih, calm_cons_iff p r w ws, runRegs_cons]
    exact and_assoc.symm

/-- No pin falls exactly when the samples of each, the last one first, never go from 1 down to 0. -/
theorem noFalls_iff_pairwise_le (pl pr : Bool) (ws : List InWord) :
    noFalls pl pr ws = true ↔
      (pl :: ws.map InWord.btnL).Pairwise (· ≤ ·) ∧ (pr :: ws.map InWord.btnR).Pairwise (· ≤ ·) := by
  simp only [← List.isChain_iff_pairwise]
  induction ws generalizing pl pr with
  | nil => simp
  | cons w ws ih =>
    have hle (a b : Bool) : (a = true → b = true) ↔ a ≤ b := Iff.rfl
    rw [noFalls_cons, ih, List.map_cons, List.map_cons, List.isChain_cons_cons, List.isChain_cons_cons, hle, hle]
    tauto

/-- What holds of two different buttons holds of every button. -/
theorem forall_button {P : Button → Prop} : ∀ {x y : Button}, x ≠ y → P x → P y → ∀ z, P z
  | .left, .left, hne, _, _, _ => absurd rfl hne
  | .right, .right, hne, _, _, _ => absurd rfl hne
  | .left, .right, _, hx, _, .left => hx
  | .left, .right, _, _, hy, .right => hy
  | .right, .left, _, _, hy, .left => hy
  | .right, .left, _, hx, _, .right => hx

/-- A stretch is calm when one pin is low to begin with and then does not fall, and the other does not move. -/
theorem calm_of_low_then (r : Regs) (x y : Button) (lows tail : List InWord) (hne : x ≠ y) (hprev : r.prev x = false)
    (hlows : ∀ v ∈ lows, InWord.btn v x = false) (htail : (tail.map (InWord.btn · x)).Pairwise (· ≤ ·))
    (hplain : ∀ v ∈ lows ++ tail, InWord.rst v = false ∧ InWord.rxValid v = false ∧ InWord.btn v y = r.prev y) :
    Calm r (lows ++ tail) := by
  have hx : (r.prev x :: (lows ++ tail).map (InWord.btn · x)).Pairwise (· ≤ ·) := by
    have hlow : ∀ b ∈ r.prev x :: lows.map (InWord.btn · x), b = false := by simpa [hprev] using hlows
    have hle (a : Bool) (ha : a ∈ r.prev x :: lows.map (InWord.btn · x)) (b : Bool) : a ≤ b :=
      (hlow a ha).symm ▸ Bool.false_le b
    rw [List.map_append, ← List.cons_append, List.pairwise_append]
    exact ⟨List.pairwise_of_forall_mem_list fun a ha b _ => hle a ha b, htail, fun a ha b _ => hle a ha b⟩
  have hy : (r.prev y :: (lows ++ tail).map (InWord.btn · y)).Pairwise (· ≤ ·) := by
    have hstill : ∀ b ∈ r.prev y :: (lows ++ tail).map (InWord.btn · y), b = r.prev y := by
      rw [List.forall_mem_cons, List.forall_mem_map]
      exact ⟨rfl, fun v hv => have ⟨_, _, hv⟩ := hplain v hv; hv⟩
    exact List.pairwise_of_forall_mem_list fun a ha b hb => le_of_eq ((hstill a ha).trans (hstill b hb).symm)
  have hpins := forall_button (P := fun z => (r.prev z :: (lows ++ tail).map (InWord.btn · z)).Pairwise (· ≤ ·)) hne hx hy
  exact ⟨fun v hv => have ⟨hrst, hrx, _⟩ := hplain v hv; ⟨hrst, hrx⟩,
    (noFalls_iff_pairwise_le _ _ _).mpr ⟨hpins .left, hpins .right⟩⟩

/-- The input of a cycle with both buttons down, without reset and without a byte. -/
structure BothDown (w : InWord) : Prop where
  rst : InWord.rst w = false
  rxValid : InWord.rxValid w = false
  low : ∀ z, InWord.btn w z = false

/-- Both pins are low when those of LEFT and RIGHT are. -/
theorem btn_eq_false (w : InWord) (hl : InWord.btnL w = false) (hr : InWord.btnR w = false) : ∀ z, InWord.btn w z = false
  | .left => hl
  | .right => hr

/-- With both samples 0, cycles with both buttons down are calm. -/
theorem calm_of_bothDown (r : Regs) (ws : List InWord) (hprev : ∀ z, r.prev z = false) (hws : ∀ v ∈ ws, BothDown v) :
    Calm r ws := by
  have hplain : ∀ v ∈ ws ++ [], InWord.rst v = false ∧ InWord.rxValid v = false ∧ InWord.btn v .right = r.prev .right := by
    rw [List.append_nil, hprev]
    exact fun v hv => ⟨(hws v hv).rst, (hws v hv).rxValid, (hws v hv).low .right⟩
  have hcalm := calm_of_low_then r .left .right ws [] nofun (hprev .left) (fun v hv => (hws v hv).low .left) .nil hplain
  rwa [List.append_nil] at hcalm

/-- Settles O37: the reset leaves the block quiet with both samples 0, and a held button has no falling edge. -/
theorem buttonHeldThroughResetDoesNothing : Obligations.ButtonHeldThroughResetDoesNothing := by
  intro s w0 ws rest hwhole hinputs hrst hws
  obtain ⟨t, hsteps, hregs, -⟩ := steps_listed (w0 :: ws) rest s hwhole hinputs
  rw [runRegs_cons, nextRegs_of_rst _ _ _ hrst] at hregs
  have hdown : ∀ v ∈ ws, BothDown v := fun v hv =>
    have ⟨hrst, hl, hr, hrx⟩ := hws v hv
    ⟨hrst, hrx, btn_eq_false v hl hr⟩
  have hprev : ∀ z, Regs.reset.prev z = false
    | .left => rfl
    | .right => rfl
  obtain ⟨hplain, hfalls⟩ := calm_of_bothDown Regs.reset ws hprev hdown
  have hquiet := quiet_runRegs s.cfg 0 ws Regs.reset ⟨rfl, rfl, pend_eq_false _ rfl rfl, rfl⟩ hfalls hplain
  rw [← hregs] at hquiet
  exact ⟨t, hsteps, hquiet.state, hquiet.note, hquiet.pend .left, hquiet.pend .right, hquiet.phase⟩

/-! ### A service of a press, up to its verdict (R69 to R73, R178) -/

/-- Nothing is announced; the Device State is `d` and the last code `c`. -/
structure Silent (d : DevState) (c : NoteCode) (r : Regs) : Prop where
  state : r.state = d
  valid : r.noteValid = false
  code : r.noteCode = c

/-- Without a byte and outside `FIRE` a cycle announces nothing and keeps the state and the code (R105, R135). -/
theorem silent_nextRegs (p : Params) (r : Regs) (w : InWord) (hrst : InWord.rst w = false)
    (hrx : InWord.rxValid w = false) (hphase : r.phase ≠ phFire) : Silent r.state r.noteCode (nextRegs p r w) := by
  obtain ⟨hstate, hvalid⟩ := nextRegs_of_no_event p r w hrst hrx hphase
  obtain ⟨-, hvalid', hcode⟩ := nextRegs_report p r w hrst
  exact ⟨hstate, hvalid, hcode.trans (noteNext_code_of_not_valid r w (hvalid'.symm.trans hvalid))⟩

/-- Outside `IDLE` the flags are kept in a cycle without a falling edge (R132). -/
theorem nextRegs_pend_kept (p : Params) (r : Regs) (w : InWord) (hrst : InWord.rst w = false)
    (hphase : r.phase ≠ phIdle) (hfall : ∀ z, fall r w z = false) : (nextRegs p r w).pend = r.pend := by
  funext z
  rw [nextRegs_pend_of_not_idle p r w hrst hphase, hfall, Bool.or_false]

/-- A service starts in `IDLE` for a button with a flag, for RIGHT only when LEFT has none (R131). -/
theorem start_iff (r : Regs) (x : Button) :
    start r x = true ↔ r.phase = phIdle ∧ r.pend x = true ∧ (x = .right → r.pendL = false) := by
  cases x with
  | left => exact (start_left_iff r).trans (and_congr_right' (and_iff_left nofun).symm)
  | right => rw [start_right_iff, and_comm (a := r.pendL = false)]; simp [Regs.pend]

/-- LEFT goes first (R131). -/
theorem start_right_of_start_left (r : Regs) (h : start r .left = true) : start r .right = false := by
  obtain ⟨-, hl⟩ := (start_left_iff r).mp h
  simp [start, hl]

/-- Only one service starts in a cycle (R131). -/
theorem start_unique (r : Regs) : ∀ x z, start r x = true → start r z = true → z = x
  | .left, .left, _, _ => rfl
  | .right, .right, _, _ => rfl
  | .left, .right, hl, hr => absurd hr (by simp [start_right_of_start_left r hl])
  | .right, .left, hr, hl => absurd hr (by simp [start_right_of_start_left r hl])

/-- The cycle that starts the service of `x` takes the flag of `x` alone (R69). -/
theorem nextRegs_pend_taken (p : Params) (r : Regs) (w : InWord) (x : Button) (hstart : start r x = true)
    (hrst : InWord.rst w = false) (hfall : ∀ z, fall r w z = false) :
    (nextRegs p r w).pend = Function.update r.pend x false := by
  funext z
  rw [nextRegs_pend p r w hrst, pendNext_eq, hfall z, Bool.false_or]
  by_cases hz : z = x
  · rw [hz, hstart, if_pos rfl, Function.update_self]
  · rw [if_neg (mt (start_unique r x z hstart) hz), Function.update_of_ne hz]

/-- A service of `x` that began at `r` has reached phase `ph` with the timer at `n`: nothing was announced on the way, and the
flag of `x` alone was taken. -/
structure Serving (r : Regs) (x : Button) (ph : Phase) (n : Nat) (r' : Regs) : Prop where
  sequencer : r'.sequencer = (ph, x, n)
  silent : Silent r.state r.noteCode r'
  pend : r'.pend = Function.update r.pend x false

/-- The cycle that starts the service (R69, R131). -/
theorem serving_nextRegs (p : Params) (r : Regs) (w : InWord) (x : Button) (hstart : start r x = true)
    (hrst : InWord.rst w = false) (hrx : InWord.rxValid w = false) (hfall : ∀ z, fall r w z = false) :
    Serving r x phSettle p.settleTicks (nextRegs p r w) := by
  obtain ⟨hidle, hpend, hleft⟩ := (start_iff r x).mp hstart
  exact ⟨nextRegs_starts_service p r w x hrst hidle hpend hleft, silent_nextRegs p r w hrst hrx (by simp [hidle]),
    nextRegs_pend_taken p r w x hstart hrst hfall⟩

/-- A cycle in `SETTLE` may move the sequencer and nothing else (R71 to R73, R132). -/
theorem Serving.of_sequencer {r r' : Regs} {x : Button} {n : Nat} (h : Serving r x phSettle n r') (p : Params) (w : InWord)
    (hrst : InWord.rst w = false) (hrx : InWord.rxValid w = false) (hfall : ∀ z, fall r' w z = false) {ph : Phase} {m : Nat}
    (hseq : (nextRegs p r' w).sequencer = (ph, x, m)) : Serving r x ph m (nextRegs p r' w) := by
  obtain ⟨hphase, -⟩ := (sequencer_eq_iff _ _ _ _).mp h.sequencer
  have hsilent := silent_nextRegs p r' w hrst hrx (by simp [hphase])
  rw [h.silent.state, h.silent.code] at hsilent
  exact ⟨hseq, hsilent, (nextRegs_pend_kept p r' w hrst (by simp [hphase]) hfall).trans h.pend⟩

/-- The settle delay: each cycle takes one off the timer (R71). -/
theorem Serving.counted_runRegs {r r' : Regs} {x : Button} {n : Nat} (p : Params) (ws : List InWord)
    (h : Serving r x phSettle (n + ws.length) r') (hcalm : Calm r' ws) : Serving r x phSettle n (runRegs p ws r') := by
  induction ws generalizing r' with
  | nil => exact h
  | cons w ws ih =>
    obtain ⟨⟨hrst, hrx, hfall⟩, hcalm⟩ := (calm_cons_iff p r' w ws).mp hcalm
    have hdown := nextRegs_counts_down p r' w x (n + ws.length) hrst h.sequencer
    exact ih (h.of_sequencer p w hrst hrx hfall hdown) hcalm

/-- A whole service in a calm stretch: started in the first cycle, then the settle delay, then the re-sample of `w`. -/
theorem serving_runRegs (p : Params) (ws : List InWord) (w : InWord) (r : Regs) (x : Button) (hstart : start r x = true)
    (hlength : ws.length = p.settleTicks + 1) (hcalm : Calm r (ws ++ [w])) :
    Serving r x (if InWord.btn w x = true then phIdle else phFire) 0 (runRegs p (ws ++ [w]) r) := by
  obtain ⟨v, vs, rfl⟩ := List.exists_cons_of_length_eq_add_one hlength
  have hcount : p.settleTicks = 0 + vs.length := by simpa using hlength.symm
  obtain ⟨⟨hrst, hrx, hfall⟩, hcalm⟩ := (calm_cons_iff p r v (vs ++ [w])).mp hcalm
  obtain ⟨hcalm, hlast⟩ := (calm_append_iff p vs [w] _).mp hcalm
  have hloaded := serving_nextRegs p r v x hstart hrst hrx hfall
  rw [hcount] at hloaded
  have hsettled := hloaded.counted_runRegs p vs hcalm
  obtain ⟨⟨hrst, hrx, hfall⟩, -⟩ := (calm_cons_iff p _ w []).mp hlast
  rw [List.cons_append, runRegs_cons, runRegs_append]
  exact hsettled.of_sequencer p w hrst hrx hfall (nextRegs_resamples p _ w x hrst hsettled.sequencer)

/-! ### A confirmed press (R72, R133, R184) -/

/-- A service of `x` that began at `r` has just been granted: its event is applied and announced, and the sequencer is idle
with the flag of `x` taken. -/
structure Granted (r : Regs) (x : Button) (r' : Regs) : Prop where
  named : NamesState (transition r.state (Button.event x)) r'
  phase : r'.phase = phIdle
  pend : r'.pend = Function.update r.pend x false

/-- A cycle without a byte grants what waits in `FIRE` (R133). -/
theorem Serving.granted_nextRegs {r r' : Regs} {x : Button} {n : Nat} (h : Serving r x phFire n r') (p : Params) (w : InWord)
    (hrst : InWord.rst w = false) (hrx : InWord.rxValid w = false) (hfall : ∀ z, fall r' w z = false) :
    Granted r x (nextRegs p r' w) := by
  obtain ⟨hfire, hsvc, -⟩ := (sequencer_eq_iff _ _ _ _).mp h.sequencer
  have hnamed := namesState_nextRegs_fire p r' w hrst hrx hfire
  rw [h.silent.state, hsvc] at hnamed
  obtain ⟨hphase, -⟩ := (sequencer_eq_iff _ _ _ _).mp (nextRegs_fire_granted p r' w hrst hrx hfire)
  exact ⟨hnamed, hphase, (nextRegs_pend_kept p r' w hrst (by simp [hfire]) hfall).trans h.pend⟩

/-- A list of `m + n` elements is cut after its first `m`. -/
theorem exists_append_of_length_eq_add {α : Type} (l : List α) (m n : Nat) (h : l.length = m + n) :
    ∃ as bs, l = as ++ bs ∧ as.length = m ∧ bs.length = n := by
  refine ⟨_, _, (List.take_append_drop m l).symm, ?_, ?_⟩
  · rw [List.length_take]; omega
  · rw [List.length_drop]; omega

/-- A service whose button is held through the re-sample, and the cycle of its grant. -/
theorem granted_runRegs (p : Params) (ws : List InWord) (w : InWord) (r : Regs) (x : Button) (hstart : start r x = true)
    (hlength : ws.length = p.settleTicks + 2) (hlow : ∀ v ∈ ws, InWord.btn v x = false) (hcalm : Calm r (ws ++ [w])) :
    Granted r x (runRegs p (ws ++ [w]) r) := by
  obtain ⟨vs, last, rfl, hvs, hlast⟩ := exists_append_of_length_eq_add ws (p.settleTicks + 1) 1 hlength
  obtain ⟨v, rfl⟩ := List.length_eq_one_iff.mp hlast
  obtain ⟨hcalm, hgrant⟩ := (calm_append_iff p _ [w] r).mp hcalm
  have hserving := serving_runRegs p vs v r x hstart hvs hcalm
  rw [hlow v (by simp), if_neg Bool.false_ne_true] at hserving
  obtain ⟨⟨hrst, hrx, hfall⟩, -⟩ := (calm_cons_iff p _ w []).mp hgrant
  rw [runRegs_append]
  exact hserving.granted_nextRegs p w hrst hrx hfall

/-- The same with both buttons down through the grant too. -/
theorem granted_runRegs_of_bothDown (p : Params) (ws : List InWord) (r : Regs) (x : Button) (hstart : start r x = true)
    (hlength : ws.length = p.settleTicks + 3) (hdown : ∀ v ∈ ws, BothDown v) (hcalm : Calm r ws) :
    Granted r x (runRegs p ws r) := by
  obtain ⟨vs, last, rfl, hvs, hlast⟩ := exists_append_of_length_eq_add ws (p.settleTicks + 2) 1 hlength
  obtain ⟨v, rfl⟩ := List.length_eq_one_iff.mp hlast
  exact granted_runRegs p vs v r x hstart hvs (fun u hu => (hdown u (by simp [hu])).low x) hcalm

/-! ### The cycle of the falling edge (R65, R67) -/

/-- `r'` follows the idle `r` with no flags: the falling edges of `w` are its flags, and nothing else has happened. -/
structure Pressed (r : Regs) (w : InWord) (r' : Regs) : Prop where
  phase : r'.phase = phIdle
  silent : Silent r.state r.noteCode r'
  pend : r'.pend = fall r w
  prev : r'.prev = InWord.btn w

/-- A cycle without reset and without a byte from an idle block with no flags. -/
theorem pressed_nextRegs (p : Params) (r : Regs) (w : InWord) (hidle : r.phase = phIdle) (hl : r.pendL = false)
    (hr : r.pendR = false) (hrst : InWord.rst w = false) (hrx : InWord.rxValid w = false) : Pressed r w (nextRegs p r w) := by
  obtain ⟨hphase, -⟩ := (sequencer_eq_iff _ _ _ _).mp (nextRegs_idle_waits p r w hrst hidle hl hr)
  exact ⟨hphase, silent_nextRegs p r w hrst hrx (by simp [hidle]), nextRegs_pend_eq_fall p r w hrst (pend_eq_false r hl hr),
    funext (nextRegs_prev p r w hrst)⟩

/-- A button has its flag after the cycle of its edge. -/
theorem Pressed.pend_of_low {r r' : Regs} {w : InWord} (h : Pressed r w r') (x : Button) (hprev : r.prev x = true)
    (hlow : InWord.btn w x = false) : r'.pend x = true := by
  rw [h.pend, fall_iff]
  exact ⟨hprev, hlow⟩

/-- One pin falls and the other does not move: the service of the one is the next, and once its flag is taken none is left. -/
theorem Pressed.alone {r r' : Regs} {w : InWord} (h : Pressed r w r') (x y : Button) (hne : x ≠ y) (hprev : r.prev x = true)
    (hlow : InWord.btn w x = false) (hstill : InWord.btn w y = r.prev y) :
    start r' x = true ∧ ∀ z, Function.update r'.pend x false z = false := by
  have hy : r'.pend y = false := by
    rw [h.pend, fall_eq_false_iff, hstill]
    exact id
  have hnone : ∀ z, Function.update r'.pend x false z = false :=
    forall_button hne (Function.update_self x false r'.pend) (by rw [Function.update_of_ne hne.symm, hy])
  refine ⟨(start_iff r' x).mpr ⟨h.phase, h.pend_of_low x hprev hlow, fun hright => ?_⟩, hnone⟩
  have hleft := hnone .left
  rw [hright] at hleft
  exact hleft

/-- The event of a button moves the state down for LEFT and up for RIGHT (R77, R85). -/
theorem transition_event (d : DevState) (x : Button) :
    transition d (Button.event x) = if x = .left then d - 1 else d + 1 := by
  cases x <;> rfl

/-! ### Presses from the edge to the verdict (R178, R181, R184) -/

/-- Settles O54: the cycle of the edge, then a service whose button is held, then its grant. -/
theorem cleanPressIsConfirmed : Obligations.CleanPressIsConfirmed := by
  intro s x y ws w rest hwhole hne hidle hl hr hprev hinputs hlength hlows hplain
  obtain ⟨u, us, rfl⟩ := List.exists_cons_of_length_eq_add_one hlength
  obtain ⟨hlow, hlows⟩ := List.forall_mem_cons.mp hlows
  obtain ⟨⟨hrst, hrx, hstill⟩, hplain⟩ := List.forall_mem_cons.mp hplain
  obtain ⟨t, hsteps, hregs, -⟩ := steps_listed (u :: us ++ [w]) rest s hwhole (by simpa using hinputs)
  have hedge := pressed_nextRegs s.cfg s.regs u hidle hl hr hrst hrx
  obtain ⟨hstart, htaken⟩ := hedge.alone x y hne hprev hlow hstill
  have hcalm := calm_of_low_then (nextRegs s.cfg s.regs u) x y us [w] hne (by rw [hedge.prev, hlow]) hlows
    (List.pairwise_singleton _ _) (by rwa [hedge.prev, hstill])
  have hgranted := granted_runRegs s.cfg us w _ x hstart (by simpa using hlength) hlows hcalm
  rw [← runRegs_cons, ← List.cons_append, ← hregs] at hgranted
  obtain ⟨⟨hstate, hvalid, hcode⟩, hphase, hflags⟩ := hgranted
  have hcount : (u :: us ++ [w]).length = s.cfg.settleTicks + 4 := by simpa using hlength
  refine ⟨t, hcount ▸ hsteps, ?_, hvalid, hcode.trans (by rw [hstate]), hphase,
    (congrFun hflags .left).trans (htaken .left), (congrFun hflags .right).trans (htaken .right)⟩
  rw [hstate, transition_event, hedge.silent.state]

/-- Settles O55: the cycle of the edge, then a service whose re-sample reads the released pin. -/
theorem shortPressIsDroppedInSilence : Obligations.ShortPressIsDroppedInSilence := by
  intro s x y lows highs rest hwhole hne hidle hl hr hprev hinputs hlows_ne hhighs_ne hlength hlows hhighs hplain
  obtain ⟨u, us, rfl⟩ := List.exists_cons_of_ne_nil hlows_ne
  obtain ⟨vs, w, rfl⟩ := (List.eq_nil_or_concat' highs).resolve_left hhighs_ne
  obtain ⟨hlow, hlows⟩ := List.forall_mem_cons.mp hlows
  obtain ⟨⟨hrst, hrx, hstill⟩, hplain⟩ := List.forall_mem_cons.mp hplain
  obtain ⟨t, hsteps, hregs, -⟩ := steps_listed (u :: us ++ (vs ++ [w])) rest s hwhole hinputs
  have hedge := pressed_nextRegs s.cfg s.regs u hidle hl hr hrst hrx
  obtain ⟨hstart, htaken⟩ := hedge.alone x y hne hprev hlow hstill
  have hrise : ((vs ++ [w]).map (InWord.btn · x)).Pairwise (· ≤ ·) := by
    refine List.pairwise_map.mpr (List.pairwise_of_forall_mem_list fun a _ b hb => ?_)
    rw [hhighs b hb]
    exact Bool.le_true _
  have hcalm := calm_of_low_then (nextRegs s.cfg s.regs u) x y us (vs ++ [w]) hne (by rw [hedge.prev, hlow]) hlows hrise
    (by rwa [hedge.prev, hstill])
  rw [← List.append_assoc] at hcalm
  have hserving := serving_runRegs s.cfg (us ++ vs) w _ x hstart
    (by simp only [List.length_cons, List.length_append, List.length_nil] at hlength ⊢; omega) hcalm
  rw [hhighs w (by simp), if_pos rfl, List.append_assoc, ← runRegs_cons, ← List.cons_append, ← hregs] at hserving
  obtain ⟨hseq, ⟨hstate, hvalid, hcode⟩, hflags⟩ := hserving
  obtain ⟨hphase, -⟩ := (sequencer_eq_iff _ _ _ _).mp hseq
  have hcount : (u :: us ++ (vs ++ [w])).length = s.cfg.settleTicks + 3 := by rw [List.length_append, hlength]
  exact ⟨t, hcount ▸ hsteps, hstate.trans hedge.silent.state, hvalid, hcode.trans hedge.silent.code, hphase,
    (congrFun hflags .left).trans (htaken .left), (congrFun hflags .right).trans (htaken .right)⟩

/-- With both flags set and both buttons held, LEFT is served and granted, and then RIGHT, whose flag has waited (R181). -/
theorem granted_left_then_right (p : Params) (as bs : List InWord) (r : Regs) (hidle : r.phase = phIdle)
    (hpend : ∀ z, r.pend z = true) (has : as.length = p.settleTicks + 3) (hbs : bs.length = p.settleTicks + 3)
    (hdown : ∀ v ∈ as ++ bs, BothDown v) (hcalm : Calm r (as ++ bs)) :
    Granted r .left (runRegs p as r) ∧ Granted (runRegs p as r) .right (runRegs p bs (runRegs p as r)) := by
  obtain ⟨hcalmA, hcalmB⟩ := (calm_append_iff p as bs r).mp hcalm
  obtain ⟨hdownA, hdownB⟩ := List.forall_mem_append.mp hdown
  have hleft := granted_runRegs_of_bothDown p as r .left ((start_left_iff r).mpr ⟨hidle, hpend .left⟩) has hdownA hcalmA
  have hnext : start (runRegs p as r) .right = true := by
    refine (start_right_iff _).mpr ⟨hleft.phase, congrFun hleft.pend .left, ?_⟩
    exact (congrFun hleft.pend .right).trans (hpend .right)
  exact ⟨hleft, granted_runRegs_of_bothDown p bs _ .right hnext hbs hdownB hcalmB⟩

/-- Settles O56: the cycle of both edges sets both flags, and the two grants that follow take one off the state and put it
back. -/
theorem bothButtonsHeldCancel : Obligations.BothButtonsHeldCancel := by
  intro s ws rest hwhole hidle hl hr hprevL hprevR hinputs hlength hws
  have hdown : ∀ v ∈ ws, BothDown v := fun v hv =>
    have ⟨hrst, hrx, hlowL, hlowR⟩ := hws v hv
    ⟨hrst, hrx, btn_eq_false v hlowL hlowR⟩
  obtain ⟨u, us, rfl⟩ := List.exists_cons_of_length_eq_add_one hlength
  obtain ⟨as, bs, rfl, has, hbs⟩ := exists_append_of_length_eq_add us (s.cfg.settleTicks + 3) (s.cfg.settleTicks + 3)
    (by rw [List.length_cons] at hlength; omega)
  obtain ⟨hu, hdown⟩ := List.forall_mem_cons.mp hdown
  obtain ⟨t1, hsteps1, hregs1, -⟩ := steps_listed (u :: as) (bs ++ rest) s hwhole (by simpa using hinputs)
  obtain ⟨t, hsteps, hregs, -⟩ := steps_listed (u :: (as ++ bs)) rest s hwhole hinputs
  rw [runRegs_cons] at hregs1
  rw [runRegs_cons, runRegs_append, ← hregs1] at hregs
  have hedge := pressed_nextRegs s.cfg s.regs u hidle hl hr hu.rst hu.rxValid
  have hflags : ∀ z, (nextRegs s.cfg s.regs u).pend z = true
    | .left => hedge.pend_of_low .left hprevL (hu.low .left)
    | .right => hedge.pend_of_low .right hprevR (hu.low .right)
  have hcalm := calm_of_bothDown (nextRegs s.cfg s.regs u) (as ++ bs) (by rw [hedge.prev]; exact hu.low) hdown
  obtain ⟨hleft, hright⟩ := granted_left_then_right s.cfg as bs _ hedge.phase hflags has hbs hdown hcalm
  rw [← hregs1] at hleft hright
  rw [← hregs] at hright
  obtain ⟨⟨hstate1, hvalid1, hcode1⟩, -, hpend1⟩ := hleft
  obtain ⟨⟨hstate, hvalid, hcode⟩, hphase, hpend⟩ := hright
  rw [Button.event, transition_left, hedge.silent.state] at hstate1 hcode1
  rw [Button.event, transition_right, hstate1, BitVec.sub_add_cancel] at hstate hcode
  rw [List.length_cons, has] at hsteps1
  rw [hlength] at hsteps
  exact ⟨t1, t, hsteps1, hstate1, hvalid1, hcode1, hsteps, hstate, hvalid, hcode, hphase,
    (congrFun hpend .left).trans (congrFun hpend1 .left), congrFun hpend .right⟩

end Sys2Proof.Machine
